-- ==== Sys2Proof/Word.lean ====
section
/-!
DEFINITION. The widths of the block's ports and registers (00_scope.md R10, 30_encoding.md R62, R63).
A port the spec calls signed is a bit vector whose reading is `BitVec.toInt`: two's complement (R11, R51).
A one-bit port or register is a `Bool`, `true` being the bit 1 (log entry 13).
-/

namespace Sys2Proof

/-- An 8-bit byte: a frame byte, a node id, a unit code, a letter. -/
abbrev Byte := BitVec 8

/-- A 16-bit port: `raw`, `whole`, `thr`, `value`, `value16`, `rx_len`. -/
abbrev Half := BitVec 16

/-- The 32-bit port `res`. -/
abbrev Word := BitVec 32

/-- A frame buffer of exactly 8 bytes, offset 0 first (R40, R60). -/
abbrev FrameBuffer := Vector Byte 8

end Sys2Proof
end

