-- ==== Sys2Proof/Syntax.lean ====
section
/-!
DEFINITION. The block's commands: the command record as it stands on the command port (30_encoding.md
R61, R62), and the operations with their own operands only (R65, R66, R73).
-/

namespace Sys2Proof

/-- The 14 operations (R66). -/
inductive Op where
  | cvtC | cvtFcenti | cvtF | wholeC | cvt
  | cmp | alarmUpd
  | encode | decode
  | split | rxRender
  | nodeCycle
  | setUnit | status
  deriving DecidableEq, Repr

/-- The operand formats (R65). -/
inductive Format where
  | r | w | wt | e | x | v | u | z
  deriving DecidableEq, Repr

/-- The operand ports beside `op` (R62). -/
inductive Port where
  | raw | whole | thr | nodeId | unit | value | alarmType | alarmActive | rxLen | rxData
  deriving DecidableEq, Repr

/-- The command record: one shape for every command (R61), the ports and widths of R62. -/
structure Command where
  op : BitVec 4
  raw : Half := 0
  whole : Half := 0
  thr : Half := 0
  nodeId : Byte := 0
  unit : Byte := 0
  value : Half := 0
  alarmType : Byte := 0
  alarmActive : Bool := false
  rxLen : Half := 0
  rxData : List Byte := []
  deriving DecidableEq, Repr

/-- An operation with the operands its format lists, and no other (R65, R66, R73). One constructor for
each row of the operation table. -/
inductive Instr where
  /-- CVT_C (R91). -/
  | cvtC (raw : Half)
  /-- CVT_FCENTI (R92). -/
  | cvtFcenti (raw : Half)
  /-- CVT_F (R93). -/
  | cvtF (raw : Half)
  /-- WHOLE_C (R94). -/
  | wholeC (raw : Half)
  /-- CVT (R95). -/
  | cvt (raw : Half)
  /-- CMP (R110). -/
  | cmp (whole thr : Half)
  /-- ALARM_UPD (R111). -/
  | alarmUpd (whole : Half)
  /-- ENCODE (R120). -/
  | encode (nodeId unit : Byte) (value : Half) (alarmType : Byte) (alarmActive : Bool)
  /-- DECODE (R121). -/
  | decode (rxLen : Half) (rxData : List Byte)
  /-- SPLIT (R135). -/
  | split (unit : Byte) (value : Half)
  /-- RX_RENDER (R140). -/
  | rxRender (rxLen : Half) (rxData : List Byte)
  /-- NODE_CYCLE (R150). -/
  | nodeCycle (raw : Half)
  /-- SET_UNIT (R160). -/
  | setUnit (unit : Byte)
  /-- STATUS (R161). -/
  | status
  deriving DecidableEq, Repr

end Sys2Proof
end

