-- ==== Sys2Proof/WellFormed.lean ====
section
/-!
DEFINITION. Which operand values a port can hold (30_encoding.md R62, U5). The types carry every width;
what is left to check is that `rx_data` has exactly `rx_len` bytes.
-/

namespace Sys2Proof

/-- `rx_data` has `rx_len` bytes (R62, D17). -/
def rxSized (rxLen : Half) (rxData : List Byte) : Bool :=
  rxData.length == rxLen.toNat

/-- The operands can stand on the operation's ports (U5). -/
def Instr.wellFormed : Instr → Bool
  | .cvtC _ => true
  | .cvtFcenti _ => true
  | .cvtF _ => true
  | .wholeC _ => true
  | .cvt _ => true
  | .cmp _ _ => true
  | .alarmUpd _ => true
  | .encode _ _ _ _ _ => true
  | .decode rxLen rxData => rxSized rxLen rxData
  | .split _ _ => true
  | .rxRender rxLen rxData => rxSized rxLen rxData
  | .nodeCycle _ => true
  | .setUnit _ => true
  | .status => true

end Sys2Proof
end

