-- ==== Sys2Proof/Decode.lean ====
section
/-!
DEFINITION. The operation table (30_encoding.md R65, R66), the decoder of command records, total, and the
encoder that goes with it. A command record has no byte layout (20_memory.md R40, 30_encoding.md R61):
what is encoded is the 4-bit operation code, the rest are ports.
-/

namespace Sys2Proof

/-- The operation code (R66). -/
def Op.code : Op → BitVec 4
  | .cvtC => 0x1
  | .cvtFcenti => 0x2
  | .cvtF => 0x3
  | .wholeC => 0x4
  | .cvt => 0x5
  | .cmp => 0x6
  | .alarmUpd => 0x7
  | .encode => 0x8
  | .decode => 0x9
  | .split => 0xA
  | .rxRender => 0xB
  | .nodeCycle => 0xC
  | .setUnit => 0xD
  | .status => 0xE

/-- The operation a code selects; 0x0 and 0xF select none (R66, R67). -/
def Op.ofCode : BitVec 4 → Option Op
  | 0x1#4 => some .cvtC
  | 0x2#4 => some .cvtFcenti
  | 0x3#4 => some .cvtF
  | 0x4#4 => some .wholeC
  | 0x5#4 => some .cvt
  | 0x6#4 => some .cmp
  | 0x7#4 => some .alarmUpd
  | 0x8#4 => some .encode
  | 0x9#4 => some .decode
  | 0xA#4 => some .split
  | 0xB#4 => some .rxRender
  | 0xC#4 => some .nodeCycle
  | 0xD#4 => some .setUnit
  | 0xE#4 => some .status
  | _ => none

/-- The operation's operand format (R66). -/
def Op.format : Op → Format
  | .cvtC => .r
  | .cvtFcenti => .r
  | .cvtF => .r
  | .wholeC => .r
  | .cvt => .r
  | .cmp => .wt
  | .alarmUpd => .w
  | .encode => .e
  | .decode => .x
  | .split => .v
  | .rxRender => .x
  | .nodeCycle => .r
  | .setUnit => .u
  | .status => .z

/-- The operand ports a format reads (R65). -/
def Format.ports : Format → List Port
  | .r => [.raw]
  | .w => [.whole]
  | .wt => [.whole, .thr]
  | .e => [.nodeId, .unit, .value, .alarmType, .alarmActive]
  | .x => [.rxLen, .rxData]
  | .v => [.unit, .value]
  | .u => [.unit]
  | .z => []

/-- What the decoder makes of a command record. -/
inductive Decoded where
  /-- An operation with its operands. -/
  | instr (i : Instr)
  /-- The code selects no operation (R67). -/
  | illegalOp
  /-- Format X with an `rx_data` that does not have `rx_len` bytes: not expressible at the port (U5). -/
  | rxSizeMismatch
  deriving DecidableEq, Repr

/-- The operation `op` with the operands its format reads from the record (R65, R73). -/
def Op.operands (op : Op) (c : Command) : Instr :=
  match op with
  | .cvtC => .cvtC c.raw
  | .cvtFcenti => .cvtFcenti c.raw
  | .cvtF => .cvtF c.raw
  | .wholeC => .wholeC c.raw
  | .cvt => .cvt c.raw
  | .cmp => .cmp c.whole c.thr
  | .alarmUpd => .alarmUpd c.whole
  | .encode => .encode c.nodeId c.unit c.value c.alarmType c.alarmActive
  | .decode => .decode c.rxLen c.rxData
  | .split => .split c.unit c.value
  | .rxRender => .rxRender c.rxLen c.rxData
  | .nodeCycle => .nodeCycle c.raw
  | .setUnit => .setUnit c.unit
  | .status => .status

/-- The decoder: the operation code first (R173), then the operands of its format. -/
def decode (c : Command) : Decoded :=
  match Op.ofCode c.op with
  | none => .illegalOp
  | some op => if (op.operands c).wellFormed then .instr (op.operands c) else .rxSizeMismatch

/-- The operation of an instruction. -/
def Instr.op : Instr → Op
  | .cvtC _ => .cvtC
  | .cvtFcenti _ => .cvtFcenti
  | .cvtF _ => .cvtF
  | .wholeC _ => .wholeC
  | .cvt _ => .cvt
  | .cmp _ _ => .cmp
  | .alarmUpd _ => .alarmUpd
  | .encode _ _ _ _ _ => .encode
  | .decode _ _ => .decode
  | .split _ _ => .split
  | .rxRender _ _ => .rxRender
  | .nodeCycle _ => .nodeCycle
  | .setUnit _ => .setUnit
  | .status => .status

/-- The command record of an instruction: its code and its operands, every other port zero (an operation
ignores it, R73). -/
def encode : Instr → Command
  | .cvtC raw => { op := 0x1, raw := raw }
  | .cvtFcenti raw => { op := 0x2, raw := raw }
  | .cvtF raw => { op := 0x3, raw := raw }
  | .wholeC raw => { op := 0x4, raw := raw }
  | .cvt raw => { op := 0x5, raw := raw }
  | .cmp whole thr => { op := 0x6, whole := whole, thr := thr }
  | .alarmUpd whole => { op := 0x7, whole := whole }
  | .encode nodeId unit value alarmType alarmActive =>
    { op := 0x8, nodeId := nodeId, unit := unit, value := value, alarmType := alarmType,
      alarmActive := alarmActive }
  | .decode rxLen rxData => { op := 0x9, rxLen := rxLen, rxData := rxData }
  | .split unit value => { op := 0xA, unit := unit, value := value }
  | .rxRender rxLen rxData => { op := 0xB, rxLen := rxLen, rxData := rxData }
  | .nodeCycle raw => { op := 0xC, raw := raw }
  | .setUnit unit => { op := 0xD, unit := unit }
  | .status => { op := 0xE }

/-- The pseudo-operation `CMPD whole=w`: CMP with DIOT's default threshold 23 (R75). -/
def Instr.cmpd (whole : Half) : Instr :=
  .cmp whole 23

/-- The two records hold the same value on a port. -/
def Port.agree (p : Port) (c c' : Command) : Prop :=
  match p with
  | .raw => c.raw = c'.raw
  | .whole => c.whole = c'.whole
  | .thr => c.thr = c'.thr
  | .nodeId => c.nodeId = c'.nodeId
  | .unit => c.unit = c'.unit
  | .value => c.value = c'.value
  | .alarmType => c.alarmType = c'.alarmType
  | .alarmActive => c.alarmActive = c'.alarmActive
  | .rxLen => c.rxLen = c'.rxLen
  | .rxData => c.rxData = c'.rxData

/-- The command record the operation table's numbering stands for: `op` is bits 3..0 and every operand
port is zero, its bits being above `nbits` (log entry 8). -/
def Command.ofTableWord (_nbits w : Nat) : Command :=
  { op := BitVec.ofNat 4 w }

/-- The instruction the decoder reads from a word of the operation table (log entry 8). -/
def decodeTableWord (nbits w : Nat) : Option Instr :=
  match decode (Command.ofTableWord nbits w) with
  | .instr i => some i
  | .illegalOp => none
  | .rxSizeMismatch => none

end Sys2Proof
end

