-- ==== Sys2Proof/Config.lean ====
section
/-!
DEFINITION. What an instance of the block fixes: the four static parameters (00_scope.md R6 to R9), and
the one value the spec leaves unstated (the bytes of a fresh transmit buffer, 42_codec.md R120).
-/

namespace Sys2Proof

/-- `BYTE_ORDER`, the byte order of the frame's `value` field (R6, R42). -/
inductive ByteOrder where
  | le
  | be
  deriving DecidableEq, Repr, Inhabited

/-- The two members of the unit enum (R69). Their codes are `TempUnit.code`. -/
inductive TempUnit where
  | celsius
  | fahrenheit
  deriving DecidableEq, Repr, Inhabited

/-- The static parameters of one instance (R6 to R9, U6). The types carry the ranges, so that no other
value can be formed (U5). `threshold` has the default R8 names; the other three have none. -/
structure Config where
  /-- `BYTE_ORDER` (R6). -/
  byteOrder : ByteOrder
  /-- `NODE_ID` (R7). -/
  nodeId : Byte
  /-- `THRESHOLD`, signed, whole degrees Celsius (R8). -/
  threshold : Half := 23
  /-- `UNIT_RESET` (R9). -/
  unitReset : TempUnit
  deriving DecidableEq, Repr, Inhabited

/-- The parameters of the instance whose reset state is `State.reset`: a free value, for the spec leaves
them open (U6, log entry 4). No proof can see what they are. -/
opaque Config.straps : Config

/-- What a fresh transmit buffer holds before ENCODE writes it: a free value, for R120 states none
(log entry 9). -/
opaque Config.freshByte : Fin 8 → Byte

end Sys2Proof
end

