-- ==== Sys2Proof/Machine/Codes.lean ====
section
/-!
DEFINITION. The named constants of the frame (30_encoding.md R68), the codes of the units (R69), the
status codes (R64) and the four errors (60_exceptions.md R170).
-/

namespace Sys2Proof.Machine

/-- `START_FLAG` (R68). -/
def startFlag : Byte := 0x55

/-- `FRAME_ID` (R68). -/
def frameId : Byte := 0x01

/-- `ALARM_TYPE_TEMPERATURE` (R68). -/
def alarmTypeTemperature : Byte := 0x01

/-- `UNIT_CELSIUS` (R68). -/
def unitCelsius : Byte := 0x01

/-- `UNIT_FAHRENHEIT` (R68). -/
def unitFahrenheit : Byte := 0x02

/-- The code of a member of the unit enum (R69). -/
def unitCode : TempUnit → Byte
  | .celsius => unitCelsius
  | .fahrenheit => unitFahrenheit

/-- The byte is a member of the unit enum (R69). -/
def isUnit (b : Byte) : Bool :=
  b == unitCelsius || b == unitFahrenheit

/-- The bit STATUS reports for `BYTE_ORDER`: 0 for LE, 1 for BE (R63, R161). -/
def byteOrderBit : ByteOrder → Bool
  | .le => false
  | .be => true

/-- What a response's status names (R64). -/
inductive Status where
  | ok
  | frameLengthError
  | frameFlagError
  | illegalOp
  | badUnit
  deriving DecidableEq, Repr

/-- The 4-bit status code (R64). -/
def statusCode : Status → BitVec 4
  | .ok => 0x0
  | .frameLengthError => 0x1
  | .frameFlagError => 0x2
  | .illegalOp => 0x3
  | .badUnit => 0x4

/-- The four errors the block raises (R170). -/
inductive BlockError where
  | frameLength
  | frameFlag
  | illegalOp
  | badUnit
  deriving DecidableEq, Repr

/-- The status an error is reported by (R170). -/
def errorStatus : BlockError → Status
  | .frameLength => .frameLengthError
  | .frameFlag => .frameFlagError
  | .illegalOp => .illegalOp
  | .badUnit => .badUnit

/-- ASCII "C" (R138). -/
def letterC : Byte := 0x43

/-- ASCII "F" (R138). -/
def letterF : Byte := 0x46

end Sys2Proof.Machine
end

