-- ==== Sys2Proof/Machine/Response.lean ====
section
/-!
DEFINITION. The response record (30_encoding.md R63): a status and the result ports. A port that is not
produced is absent, `none`, never zero (R63, U3, log entry 11).
-/

namespace Sys2Proof.Machine

/-- The response record, ports and widths of R63. -/
structure Response where
  status : BitVec 4
  /-- Signed. -/
  res : Option Word := none
  /-- Signed. -/
  value16 : Option Half := none
  ovf : Option Bool := none
  active : Option Bool := none
  rise : Option Bool := none
  fall : Option Bool := none
  frame : Option FrameBuffer := none
  fStartFlag : Option Byte := none
  fFrameId : Option Byte := none
  fNodeId : Option Byte := none
  fUnit : Option Byte := none
  /-- Signed. -/
  fValue : Option Half := none
  fAlarmType : Option Byte := none
  fAlarmStatus : Option Byte := none
  /-- Signed. -/
  wholePart : Option Half := none
  fracPart : Option (BitVec 14) := none
  unitLetter : Option Byte := none
  sUnit : Option Byte := none
  sAlarmActive : Option Bool := none
  sNodeId : Option Byte := none
  /-- Signed. -/
  sThreshold : Option Half := none
  sByteOrder : Option Bool := none
  deriving DecidableEq, Repr

/-- The names of the result ports (R63). -/
inductive ResultPort where
  | res | value16 | ovf | active | rise | fall | frame
  | fStartFlag | fFrameId | fNodeId | fUnit | fValue | fAlarmType | fAlarmStatus
  | wholePart | fracPart | unitLetter
  | sUnit | sAlarmActive | sNodeId | sThreshold | sByteOrder
  deriving DecidableEq, Repr

/-- Every result port, in the order of R63. -/
def resultPorts : List ResultPort :=
  [.res, .value16, .ovf, .active, .rise, .fall, .frame,
   .fStartFlag, .fFrameId, .fNodeId, .fUnit, .fValue, .fAlarmType, .fAlarmStatus,
   .wholePart, .fracPart, .unitLetter,
   .sUnit, .sAlarmActive, .sNodeId, .sThreshold, .sByteOrder]

/-- The response carries the port. -/
def Response.produces (r : Response) : ResultPort → Bool
  | .res => r.res.isSome
  | .value16 => r.value16.isSome
  | .ovf => r.ovf.isSome
  | .active => r.active.isSome
  | .rise => r.rise.isSome
  | .fall => r.fall.isSome
  | .frame => r.frame.isSome
  | .fStartFlag => r.fStartFlag.isSome
  | .fFrameId => r.fFrameId.isSome
  | .fNodeId => r.fNodeId.isSome
  | .fUnit => r.fUnit.isSome
  | .fValue => r.fValue.isSome
  | .fAlarmType => r.fAlarmType.isSome
  | .fAlarmStatus => r.fAlarmStatus.isSome
  | .wholePart => r.wholePart.isSome
  | .fracPart => r.fracPart.isSome
  | .unitLetter => r.unitLetter.isSome
  | .sUnit => r.sUnit.isSome
  | .sAlarmActive => r.sAlarmActive.isSome
  | .sNodeId => r.sNodeId.isSome
  | .sThreshold => r.sThreshold.isSome
  | .sByteOrder => r.sByteOrder.isSome

/-- The ports a response carries, in the order of R63. -/
def Response.produced (r : Response) : List ResultPort :=
  resultPorts.filter r.produces

/-- The seven field ports of DECODE and RX_RENDER (R63). -/
def fieldPorts : List ResultPort :=
  [.fStartFlag, .fFrameId, .fNodeId, .fUnit, .fValue, .fAlarmType, .fAlarmStatus]

/-- The result ports an operation produces when it ends with status OK (R63, "produced by"). -/
def opResultPorts : Op → List ResultPort
  | .cvtC => [.res]
  | .cvtFcenti => [.res]
  | .cvtF => [.res]
  | .wholeC => [.res]
  | .cvt => [.value16, .ovf]
  | .cmp => [.active]
  | .alarmUpd => [.active, .rise, .fall]
  | .encode => [.frame]
  | .decode => fieldPorts
  | .split => [.wholePart, .fracPart, .unitLetter]
  | .rxRender => fieldPorts ++ [.wholePart, .fracPart, .unitLetter]
  | .nodeCycle => [.value16, .ovf, .active, .rise, .fall, .frame]
  | .setUnit => []
  | .status => [.sUnit, .sAlarmActive, .sNodeId, .sThreshold, .sByteOrder]

/-- A response with status OK and no result yet. -/
def okResponse : Response :=
  { status := statusCode .ok }

/-- The response of an error: its status and no result port (R172). -/
def errorResponse (e : BlockError) : Response :=
  { status := statusCode (errorStatus e) }

end Sys2Proof.Machine
end

