-- ==== Sys2Proof/Machine/State.lean ====
section
/-!
DEFINITION. The machine's state: the two registers (10_state.md R22, R23), the static parameters a step
takes as an argument (R24, U6), and the two ports as the host sees them. There is nothing else (R20, R21,
R25, R27). Fault and Refusal name the two ways a step can have no next state.
-/

namespace Sys2Proof.Machine

/-- What the host does next: it issues a command (R5), or it resets the block between two commands (R190). -/
inductive HostEvent where
  | command (c : Command)
  | reset
  deriving DecidableEq, Repr

/-- The state of one instance. -/
structure State where
  /-- The static parameters, tied before reset and never changed (R24, log entry 4). No step writes them. -/
  straps : Config
  /-- Register `UNIT` (R22). -/
  unit : Byte
  /-- Register `ALARM_ACTIVE` (R23). -/
  alarmActive : Bool
  /-- The environment: the events the host has still to issue, next one first (R5, R190, log entry 1). -/
  host : List HostEvent
  /-- The environment: the responses the host has received, newest first (R48, R63, log entry 2). No
  meaning reads it, so the block keeps no record of it (R25, R175). -/
  responses : List Response
  deriving DecidableEq, Repr

/-- Why a step has no next state. -/
inductive Fault where
  /-- Raised by `step` when the host has nothing to issue: with no command there is no step (R5). A stuck
  state of the model, not an error of the block. Safe: no claim is proved of a step that is not taken. -/
  | noCommand
  deriving DecidableEq, Repr

/-- Why a step is refused. -/
inductive Refusal where
  /-- Raised by `exec` for an instruction that has no meaning yet; no arm raises it. Safe. -/
  | notModelled (mnemonic : String)
  /-- Raised by `step`, DECODE and RX_RENDER on a record whose `rx_data` does not have `rx_len` bytes: such a
  value is not expressible at the port (U5, treatment "refuse"). Safe: no real command is refused. -/
  | rxSizeMismatch
  deriving DecidableEq, Repr

/-- An instance with the given static parameters right after reset (R26, R190): UNIT = UNIT_RESET,
ALARM_ACTIVE = 0, no command issued and no response given. -/
def State.resetOf (straps : Config) : State :=
  { straps := straps, unit := unitCode straps.unitReset, alarmActive := false, host := [], responses := [] }

/-- The machine right after reset, its static parameters left open (U6). -/
def State.reset : State :=
  State.resetOf Config.straps

end Sys2Proof.Machine
end

