-- ==== Sys2Proof/Machine/Operands.lean ====
section
/-!
DEFINITION. How operands are read and results narrowed, and the integer arithmetic of the rules
(00_scope.md R11 to R15). All arithmetic is over the integers; a value is narrowed only where it enters a
port.
-/

namespace Sys2Proof.Machine

/-- A signed 16-bit port read as an integer: two's complement (R11, `sext_16` of R15). -/
def signed16 (v : Half) : Int :=
  v.toInt

/-- `tdiv(a, b)`: integer division truncating toward zero (R12). -/
def tdiv (a b : Int) : Int :=
  a.sign * b.sign * ((a.natAbs / b.natAbs : Nat) : Int)

/-- `trem(a, b)`: the remainder that goes with `tdiv` (R13). -/
def trem (a b : Int) : Int :=
  a - b * tdiv a b

/-- `abs(a)` over the integers (R14). -/
def absInt (a : Int) : Int :=
  if a ≥ 0 then a else -a

/-- `wrap16(v)`: the low 16 bits of `v`, to be read as two's complement (R15). -/
def wrap16 (v : Int) : Half :=
  BitVec.ofInt 16 v

/-- An exact converter result on the 32-bit port `res` (R90, R96: it always fits). -/
def toRes (v : Int) : Word :=
  BitVec.ofInt 32 v

/-- `u8(b)` (R15). -/
def u8 (b : Bool) : Byte :=
  if b then 0x01 else 0x00

end Sys2Proof.Machine
end

