-- ==== Sys2Proof/Machine/Flags.lean ====
section
/-!
DEFINITION. The one-bit results: `ovf` (40_converter.md R95), `active`, `rise`, `fall` (41_alarm.md R110,
R111).
-/

namespace Sys2Proof.Machine

/-- `fits16(v)` (R15). -/
def fits16 (v : Int) : Bool :=
  decide (-32768 ≤ v) && decide (v ≤ 32767)

/-- `ovf`: the exact result does not fit the 16-bit `value` (R95). -/
def overflow (v : Int) : Bool :=
  !fits16 v

/-- The alarm condition: strictly above the threshold (R110, R111). -/
def above (whole threshold : Int) : Bool :=
  decide (whole > threshold)

/-- `rise`: inactive before, active now (R111). -/
def riseEdge (old new : Bool) : Bool :=
  !old && new

/-- `fall`: active before, inactive now (R111). -/
def fallEdge (old new : Bool) : Bool :=
  old && !new

end Sys2Proof.Machine
end

