-- ==== Sys2Proof/Machine/Ops.lean ====
section
/-!
DEFINITION. The shared operations: accesses to a frame buffer (20_memory.md R44, R45), the writes of the two
registers, completing a command with a response (30_encoding.md R63), raising an error (60_exceptions.md
R172; there is nothing to return from, R176), the reset event (70_reset_and_hazards.md R190) and taking the
host's next event (00_scope.md R5).
-/

namespace Sys2Proof.Machine

/-- What a step of this machine answers. -/
abbrev Answer := Host.Outcome State Fault Refusal

/-! ### The frame buffer -/

/-- `MemRead(buf, off, 1)` (R44). The offset's type is the rule's `off + 1 ≤ 8`. -/
def memRead8 (buf : FrameBuffer) (off : Fin 8) : Byte :=
  buf[off.val]

/-- `MemRead(buf, off, 2)` (R44), the two bytes put together in the byte order. The offset's type is the
rule's `off + 2 ≤ 8`. -/
def memRead16 (order : ByteOrder) (buf : FrameBuffer) (off : Fin 7) : Half :=
  match order with
  | .le => buf[off.val + 1] ++ buf[off.val]
  | .be => buf[off.val] ++ buf[off.val + 1]

/-- `MemWrite(buf, off, 1, v)` (R45). -/
def memWrite8 (buf : FrameBuffer) (off : Fin 8) (v : Byte) : FrameBuffer :=
  buf.set off.val v

/-- `MemWrite(buf, off, 2, v)` (R45). -/
def memWrite16 (order : ByteOrder) (buf : FrameBuffer) (off : Fin 7) (v : Half) : FrameBuffer :=
  match order with
  | .le => (buf.set off.val (v.extractLsb' 0 8)).set (off.val + 1) (v.extractLsb' 8 8)
  | .be => (buf.set off.val (v.extractLsb' 8 8)).set (off.val + 1) (v.extractLsb' 0 8)

/-- A fresh transmit buffer: what its bytes hold is not stated (R120, log entry 9). -/
def freshBuffer : FrameBuffer :=
  Vector.ofFn Config.freshByte

/-- A received byte sequence as a frame buffer, when it has exactly 8 bytes (R40, R121). -/
def rxBuffer (rxData : List Byte) : Option FrameBuffer :=
  if h : rxData.length = 8 then some (Vector.mk rxData.toArray (by simpa using h)) else none

/-! ### Registers and responses -/

/-- `UNIT <- v` (R16, R160). -/
def State.writeUnit (s : State) (v : Byte) : State :=
  { s with unit := v }

/-- `ALARM_ACTIVE <- v` (R16, R111). -/
def State.writeAlarm (s : State) (v : Bool) : State :=
  { s with alarmActive := v }

/-- The response is placed on the response port (R5, R63). -/
def State.respond (s : State) (r : Response) : State :=
  { s with responses := r :: s.responses }

/-- The command ends with this response; `s` holds the register writes it made. -/
def complete (r : Response) (s : State) : Answer :=
  .next (s.respond r)

/-- `raise e` (R172): the response is the error's status and nothing else, no register is written, and the
block is ready for the next command (R176). -/
def raise (e : BlockError) (s : State) : Answer :=
  .next (s.respond (errorResponse e))

/-! ### The host's side of a step -/

/-- The reset event (R190): the two registers take their reset values (R26), nothing is reported and nothing
else is touched. -/
def applyReset (s : State) : State :=
  (s.writeUnit (unitCode s.straps.unitReset)).writeAlarm false

/-- What the host does next, and the state once the event is taken from its script. -/
inductive Fetched where
  | idle
  | reset (s : State)
  | command (c : Command) (s : State)
  deriving DecidableEq, Repr

/-- Take the host's next event (R5, R190). -/
def fetch (s : State) : Fetched :=
  match s.host with
  | [] => .idle
  | .reset :: rest => .reset { s with host := rest }
  | .command c :: rest => .command c { s with host := rest }

/-- The host issues a command before everything it had in mind. -/
def State.issue (s : State) (c : Command) : State :=
  { s with host := .command c :: s.host }

end Sys2Proof.Machine
end

