-- ==== Sys2Proof/Machine/Alarm.lean ====
section
/-!
DEFINITION. The threshold comparator and the alarm state: CMP, ALARM_UPD (41_alarm.md R110 to R114).
-/

namespace Sys2Proof.Machine

/-- CMP (R110). -/
def execCmp (whole thr : Half) (s : State) : Answer :=
  complete { okResponse with active := some (above (signed16 whole) (signed16 thr)) } s

/-- ALARM_UPD (R111). -/
def execAlarmUpd (whole : Half) (s : State) : Answer :=
  let new := above (signed16 whole) (signed16 s.straps.threshold)
  complete
    { okResponse with
      active := some new
      rise := some (riseEdge s.alarmActive new)
      fall := some (fallEdge s.alarmActive new) }
    (s.writeAlarm new)

end Sys2Proof.Machine
end

