-- ==== Sys2Proof/Machine/Codec.lean ====
section
/-!
DEFINITION. The frame codec: ENCODE, DECODE (42_codec.md R120 to R125), over the frame layout of
20_memory.md R41 and 30_encoding.md R60.
-/

namespace Sys2Proof.Machine

/-- The seven fields written into a buffer in the order of R120. -/
def writeFrame (order : ByteOrder) (f : FrameBuffer) (nodeId unit : Byte) (value : Half) (alarmType : Byte)
    (alarmActive : Bool) : FrameBuffer :=
  let f := memWrite8 f 0 startFlag
  let f := memWrite8 f 1 frameId
  let f := memWrite8 f 2 nodeId
  let f := memWrite8 f 3 unit
  let f := memWrite16 order f 4 value
  let f := memWrite8 f 6 alarmType
  memWrite8 f 7 (u8 alarmActive)

/-- The frame ENCODE and NODE_CYCLE produce: the fields in a fresh buffer (R120). -/
def encodeFrame (order : ByteOrder) (nodeId unit : Byte) (value : Half) (alarmType : Byte)
    (alarmActive : Bool) : FrameBuffer :=
  writeFrame order freshBuffer nodeId unit value alarmType alarmActive

/-- The fields of a decoded frame (R60, R121). -/
structure FrameFields where
  startFlag : Byte
  frameId : Byte
  nodeId : Byte
  unit : Byte
  value : Half
  alarmType : Byte
  alarmStatus : Byte
  deriving DecidableEq, Repr

/-- The seven fields of an 8-byte buffer (R121). -/
def readFields (order : ByteOrder) (b : FrameBuffer) : FrameFields :=
  { startFlag := memRead8 b 0
    frameId := memRead8 b 1
    nodeId := memRead8 b 2
    unit := memRead8 b 3
    value := memRead16 order b 4
    alarmType := memRead8 b 6
    alarmStatus := memRead8 b 7 }

/-- What the checks of DECODE make of a received byte sequence. -/
inductive RxChecked where
  | raised (e : BlockError)
  | fields (f : FrameFields)
  /-- `rx_len` is 8 and `rx_data` does not have 8 bytes: not expressible (U5). -/
  | missized
  deriving DecidableEq, Repr

/-- The receive checks of R121 and R140 in their order (R173): the length from `rx_len` alone (R47), then
the start flag; nothing else is checked (R72, R123). -/
def checkRx (order : ByteOrder) (rxLen : Half) (rxData : List Byte) : RxChecked :=
  if rxLen ≠ 8 then .raised .frameLength
  else
    match rxBuffer rxData with
    | none => .missized
    | some b => if memRead8 b 0 ≠ startFlag then .raised .frameFlag else .fields (readFields order b)

/-- The response of a successful DECODE (R121). -/
def fieldsResponse (f : FrameFields) : Response :=
  { okResponse with
    fStartFlag := some f.startFlag
    fFrameId := some f.frameId
    fNodeId := some f.nodeId
    fUnit := some f.unit
    fValue := some f.value
    fAlarmType := some f.alarmType
    fAlarmStatus := some f.alarmStatus }

/-- A *valid Frame* (R125). -/
def FrameFields.valid (f : FrameFields) : Bool :=
  f.startFlag == Machine.startFlag && f.frameId == Machine.frameId && isUnit f.unit &&
    f.alarmType == alarmTypeTemperature && (f.alarmStatus == 0 || f.alarmStatus == 1)

/-- ENCODE (R120). -/
def execEncode (nodeId unit : Byte) (value : Half) (alarmType : Byte) (alarmActive : Bool) (s : State) :
    Answer :=
  complete
    { okResponse with frame := some (encodeFrame s.straps.byteOrder nodeId unit value alarmType alarmActive) }
    s

/-- DECODE (R121). -/
def execDecode (rxLen : Half) (rxData : List Byte) (s : State) : Answer :=
  match checkRx s.straps.byteOrder rxLen rxData with
  | .raised e => raise e s
  | .fields f => complete (fieldsResponse f) s
  | .missized => .refused .rxSizeMismatch

end Sys2Proof.Machine
end

