-- ==== Sys2Proof/Machine/Converter.lean ====
section
/-!
DEFINITION. The converter: CVT_C, CVT_FCENTI, CVT_F, WHOLE_C, CVT (40_converter.md R90 to R99).
-/

namespace Sys2Proof.Machine

/-- `toCelsiusFixed(raw)` (R91). -/
def toCelsiusFixed (raw : Int) : Int :=
  raw * 4

/-- `toFahrenheitCentiFromRaw(raw)` (R92). -/
def toFahrenheitCenti (raw : Int) : Int :=
  raw * 45 + 3200

/-- `toFahrenheitFixed(raw)` (R93): the product first, then the truncating division. -/
def toFahrenheitFixed (raw : Int) : Int :=
  tdiv (toFahrenheitCenti raw * 16) 100

/-- `wholeDegreesC(raw)` (R94). -/
def wholeDegreesC (raw : Int) : Int :=
  tdiv raw 4

/-- The exact conversion in the selected unit, `v32` of R95 and R150. -/
def convertIn (unit : Byte) (raw : Int) : Int :=
  if unit = unitCelsius then toCelsiusFixed raw else toFahrenheitFixed raw

/-- CVT_C (R91). -/
def execCvtC (raw : Half) (s : State) : Answer :=
  complete { okResponse with res := some (toRes (toCelsiusFixed (signed16 raw))) } s

/-- CVT_FCENTI (R92). -/
def execCvtFcenti (raw : Half) (s : State) : Answer :=
  complete { okResponse with res := some (toRes (toFahrenheitCenti (signed16 raw))) } s

/-- CVT_F (R93). -/
def execCvtF (raw : Half) (s : State) : Answer :=
  complete { okResponse with res := some (toRes (toFahrenheitFixed (signed16 raw))) } s

/-- WHOLE_C (R94). -/
def execWholeC (raw : Half) (s : State) : Answer :=
  complete { okResponse with res := some (toRes (wholeDegreesC (signed16 raw))) } s

/-- CVT (R95). -/
def execCvt (raw : Half) (s : State) : Answer :=
  let v32 := convertIn s.unit (signed16 raw)
  complete { okResponse with value16 := some (wrap16 v32), ovf := some (overflow v32) } s

end Sys2Proof.Machine
end

