-- ==== Sys2Proof/Machine/NodeCycle.lean ====
section
/-!
DEFINITION. The node cycle (44_node_cycle.md R150 to R153).
-/

namespace Sys2Proof.Machine

/-- NODE_CYCLE (R150): the alarm on the Celsius whole degrees, the conversion in the selected unit, the frame
with the block's own node id, unit and new alarm state. -/
def execNodeCycle (raw : Half) (s : State) : Answer :=
  let new := above (wholeDegreesC (signed16 raw)) (signed16 s.straps.threshold)
  let v32 := convertIn s.unit (signed16 raw)
  let v16 := wrap16 v32
  complete
    { okResponse with
      value16 := some v16
      ovf := some (overflow v32)
      active := some new
      rise := some (riseEdge s.alarmActive new)
      fall := some (fallEdge s.alarmActive new)
      frame := some (encodeFrame s.straps.byteOrder s.straps.nodeId s.unit v16 alarmTypeTemperature new) }
    (s.writeAlarm new)

end Sys2Proof.Machine
end

