-- ==== Sys2Proof/Machine/Render.lean ====
section
/-!
DEFINITION. The render operations SPLIT and RX_RENDER (43_render.md R135 to R141).
-/

namespace Sys2Proof.Machine

/-- `whole_part(value)` (R136). -/
def wholePart (value : Int) : Int :=
  tdiv value 16

/-- `frac_part(value)` (R137). -/
def fracPart (value : Int) : Int :=
  tdiv (absInt (trem value 16) * 10000) 16

/-- `unit_letter(unit)` (R138). -/
def unitLetter (unit : Byte) : Byte :=
  if unit = unitCelsius then letterC else letterF

/-- The three render results put beside what a response already holds (R135, R140). -/
def withSplit (unit : Byte) (value : Half) (r : Response) : Response :=
  { r with
    wholePart := some (wrap16 (wholePart (signed16 value)))
    fracPart := some (BitVec.ofInt 14 (fracPart (signed16 value)))
    unitLetter := some (unitLetter unit) }

/-- SPLIT (R135). -/
def execSplit (unit : Byte) (value : Half) (s : State) : Answer :=
  complete (withSplit unit value okResponse) s

/-- RX_RENDER (R140): DECODE's checks and fields, then SPLIT on the decoded unit and value. -/
def execRxRender (rxLen : Half) (rxData : List Byte) (s : State) : Answer :=
  match checkRx s.straps.byteOrder rxLen rxData with
  | .raised e => raise e s
  | .fields f => complete (withSplit f.unit f.value (fieldsResponse f)) s
  | .missized => .refused .rxSizeMismatch

end Sys2Proof.Machine
end

