-- ==== Sys2Proof/Machine/System.lean ====
section
/-!
DEFINITION. The system operations SET_UNIT and STATUS (45_system.md R160, R161).
-/

namespace Sys2Proof.Machine

/-- SET_UNIT (R160): the check comes before the write (R172). -/
def execSetUnit (unit : Byte) (s : State) : Answer :=
  if isUnit unit then complete okResponse (s.writeUnit unit) else raise .badUnit s

/-- STATUS (R161). -/
def execStatus (s : State) : Answer :=
  complete
    { okResponse with
      sUnit := some s.unit
      sAlarmActive := some s.alarmActive
      sNodeId := some s.straps.nodeId
      sThreshold := some s.straps.threshold
      sByteOrder := some (byteOrderBit s.straps.byteOrder) }
    s

end Sys2Proof.Machine
end

