-- ==== Sys2Proof/Machine/Dispatch.lean ====
section
/-!
DEFINITION. One arm for each operation of the table (30_encoding.md R66).
-/

namespace Sys2Proof.Machine

def exec (i : Instr) (s : State) : Host.Outcome State Fault Refusal :=
  match i with
  | .cvtC raw => Sys2Proof.Machine.execCvtC raw s
  | .cvtFcenti raw => Sys2Proof.Machine.execCvtFcenti raw s
  | .cvtF raw => Sys2Proof.Machine.execCvtF raw s
  | .wholeC raw => Sys2Proof.Machine.execWholeC raw s
  | .cvt raw => Sys2Proof.Machine.execCvt raw s
  | .cmp whole thr => Sys2Proof.Machine.execCmp whole thr s
  | .alarmUpd whole => Sys2Proof.Machine.execAlarmUpd whole s
  | .encode nodeId unit value alarmType alarmActive => Sys2Proof.Machine.execEncode nodeId unit value alarmType alarmActive s
  | .decode rxLen rxData => Sys2Proof.Machine.execDecode rxLen rxData s
  | .split unit value => Sys2Proof.Machine.execSplit unit value s
  | .rxRender rxLen rxData => Sys2Proof.Machine.execRxRender rxLen rxData s
  | .nodeCycle raw => Sys2Proof.Machine.execNodeCycle raw s
  | .setUnit unit => Sys2Proof.Machine.execSetUnit unit s
  | .status => Sys2Proof.Machine.execStatus s

end Sys2Proof.Machine
end

