-- ==== Sys2Proof/Machine/Step.lean ====
section
/-!
DEFINITION. One step: the host's next event. A command is decoded and executed (00_scope.md R5), an illegal
operation code raises IllegalOp (30_encoding.md R67), a reset sets the two registers (70_reset_and_hazards.md
R190).
-/

namespace Sys2Proof.Machine

/-- A command record presented on the command port of a block in state `s`. -/
def runCommand (c : Command) (s : State) : Host.Outcome State Fault Refusal :=
  match decode c with
  | .instr i => exec i s
  | .illegalOp => raise .illegalOp s
  | .rxSizeMismatch => .refused .rxSizeMismatch

/-- One step of the machine. -/
def step (s : State) : Host.Outcome State Fault Refusal :=
  match fetch s with
  | .idle => .fault .noCommand
  | .reset t => .next (applyReset t)
  | .command c t => runCommand c t

/-- The word of the operation table stands on the command port: the host issues it next (log entry 8). -/
def State.withFetchWord (s : State) (nbits w : Nat) : State :=
  s.issue (Command.ofTableWord nbits w)

end Sys2Proof.Machine
end

