-- ==== Sys2Proof/Machine/Csv.lean ====
section
/-!
DEFINITION. The CSV record of a rendered frame (43_render.md R139), byte for byte in ASCII. It is a function
of the response; printing it is the host's work, and no step calls it.
-/

namespace Sys2Proof.Machine

/-- The ASCII code of the last decimal digit of `n` (G3). -/
def digit (n : Nat) : Byte :=
  BitVec.ofNat 8 (0x30 + n % 10)

/-- The decimal numeral of `n`, at most `fuel + 1` digits. -/
def decimalDigits : Nat → Nat → List Byte
  | 0, n => [digit n]
  | fuel + 1, n => if n < 10 then [digit n] else decimalDigits fuel (n / 10) ++ [digit n]

/-- `dec(n)`: no leading zeros, `0` for zero (R139). -/
def decimal (n : Nat) : List Byte :=
  decimalDigits n n

/-- `sdec(n)`: a leading `-` for a negative `n` (R139). -/
def signedDecimal (n : Int) : List Byte :=
  if n ≥ 0 then decimal n.natAbs else 0x2D :: decimal n.natAbs

/-- `pad4(n)`: padded on the left with `0` to four digits (R139). -/
def pad4 (n : Nat) : List Byte :=
  List.replicate (4 - (decimal n).length) 0x30 ++ decimal n

/-- The record's text from its six numbers (R139). -/
def csvText (nodeId letter : Byte) (whole : Half) (frac : BitVec 14) (alarmType alarmStatus : Byte) :
    List Byte :=
  decimal nodeId.toNat ++ [0x3B] ++ [letter] ++ [0x3B] ++ signedDecimal (signed16 whole) ++ [0x2E] ++
    pad4 frac.toNat ++ [0x3B] ++ decimal alarmType.toNat ++ [0x3B] ++ decimal alarmStatus.toNat

/-- The CSV record of a response: one for a successful RX_RENDER, none for any other response (R139). -/
def csvRecord (r : Response) : Option (List Byte) :=
  match r.fNodeId, r.unitLetter, r.wholePart, r.fracPart, r.fAlarmType, r.fAlarmStatus with
  | some n, some l, some w, some f, some t, some a => some (csvText n l w f t a)
  | _, _, _, _, _, _ => none

end Sys2Proof.Machine
end

