-- ==== Sys2Proof/Safety.lean ====
section
/-!
DEFINITION. What claims call a good state, a good response and a safe run, in the spec's words.
-/

namespace Sys2Proof.Machine

/-- A command record the ports can hold (R62, U5). -/
def expressible (c : Command) : Bool :=
  rxSized c.rxLen c.rxData

/-- Every event the host has still to issue can stand on the ports (U5). -/
def State.hostExpressible (s : State) : Bool :=
  s.host.all fun e =>
    match e with
    | .command c => expressible c
    | .reset => true

/-- The invariant of register UNIT: 0x01 or 0x02 at all times (R22). -/
def State.unitLegal (s : State) : Prop :=
  s.unit = 0x01 ∨ s.unit = 0x02

/-- The result ports of a response belong to its status: exactly the ports of one operation with OK, none
with one of the four errors, and no other status (R63, R64). -/
def Response.shaped (r : Response) : Prop :=
  (r.status = 0x0 ∧ ∃ op : Op, r.produced = opResultPorts op) ∨
    ((r.status = 0x1 ∨ r.status = 0x2 ∨ r.status = 0x3 ∨ r.status = 0x4) ∧ r.produced = [])

/-- The values a response's ports can take (R63, R111, R120, R121, R136 to R138, R161). -/
def Response.inRange (r : Response) : Prop :=
  (∀ w, r.wholePart = some w → -2048 ≤ w.toInt ∧ w.toInt ≤ 2047) ∧
  (∀ f, r.fracPart = some f → ∃ k : Nat, k ≤ 15 ∧ f.toNat = 625 * k) ∧
  (∀ l, r.unitLetter = some l → l = 0x43 ∨ l = 0x46) ∧
  (∀ u, r.sUnit = some u → u = 0x01 ∨ u = 0x02) ∧
  (∀ b, r.fStartFlag = some b → b = 0x55) ∧
  (r.rise = some true → r.active = some true ∧ r.fall = some false) ∧
  (r.fall = some true → r.active = some false ∧ r.rise = some false) ∧
  (∀ f, r.frame = some f → f[0] = 0x55 ∧ f[1] = 0x01 ∧ (f[7] = 0x00 ∨ f[7] = 0x01))

/-- The invariant of the whole machine: UNIT is legal (R22) and every response given so far has the shape and
the ranges of R63. -/
def State.Inv (s : State) : Prop :=
  s.unitLegal ∧ ∀ r ∈ s.responses, r.shaped ∧ r.inRange

/-- No conversion overflowed: `ovf` is 0 wherever it is produced (U1, R180). -/
def Response.inEnvelope (r : Response) : Bool :=
  r.ovf != some true

/-- A run inside the envelope in which a frame's `value` means a temperature (U1). -/
def State.inEnvelope (s : State) : Bool :=
  s.responses.all Response.inEnvelope

/-- What of a state the block itself holds: two registers and the static parameters (R22 to R24). -/
def State.block (s : State) : Config × Byte × Bool :=
  (s.straps, s.unit, s.alarmActive)

/-- What of the block an operation's results may depend on: the "r" marks of the access table (R28). -/
structure Access where
  unit : Bool
  alarmActive : Bool
  nodeId : Bool
  threshold : Bool
  byteOrder : Bool
  deriving DecidableEq, Repr

/-- The read marks of R28, row by row. -/
def opReads : Op → Access
  | .cvtC => ⟨false, false, false, false, false⟩
  | .cvtFcenti => ⟨false, false, false, false, false⟩
  | .cvtF => ⟨false, false, false, false, false⟩
  | .wholeC => ⟨false, false, false, false, false⟩
  | .cvt => ⟨true, false, false, false, false⟩
  | .cmp => ⟨false, false, false, false, false⟩
  | .alarmUpd => ⟨false, true, false, true, false⟩
  | .encode => ⟨false, false, false, false, true⟩
  | .decode => ⟨false, false, false, false, true⟩
  | .split => ⟨false, false, false, false, false⟩
  | .rxRender => ⟨false, false, false, false, true⟩
  | .nodeCycle => ⟨true, true, true, true, true⟩
  | .setUnit => ⟨false, false, false, false, false⟩
  | .status => ⟨true, true, true, true, true⟩

/-- Two states agree on everything marked. -/
def Access.agree (a : Access) (s t : State) : Prop :=
  (a.unit = true → s.unit = t.unit) ∧
  (a.alarmActive = true → s.alarmActive = t.alarmActive) ∧
  (a.nodeId = true → s.straps.nodeId = t.straps.nodeId) ∧
  (a.threshold = true → s.straps.threshold = t.straps.threshold) ∧
  (a.byteOrder = true → s.straps.byteOrder = t.straps.byteOrder)

/-- The status a command ends with, from its record alone, in the order of priority (R170, R173): IllegalOp,
then FrameLengthError, then FrameFlagError; BadUnit cannot coincide with them. -/
def statusOf (c : Command) : BitVec 4 :=
  if c.op = 0x0 ∨ c.op = 0xF then 0x3
  else if (c.op = 0x9 ∨ c.op = 0xB) ∧ c.rxLen ≠ 8 then 0x1
  else if (c.op = 0x9 ∨ c.op = 0xB) ∧ c.rxData.head? ≠ some 0x55 then 0x2
  else if c.op = 0xD ∧ c.unit ≠ 0x01 ∧ c.unit ≠ 0x02 then 0x4
  else 0x0

/-- How many of the events are commands. -/
def commandCount (events : List HostEvent) : Nat :=
  (events.filter fun e =>
    match e with
    | .command _ => true
    | .reset => false).length

end Sys2Proof.Machine
end

