-- ==== Sys2Proof/Certificates/Slice0/Obligations.lean ====
section
/-!
DEFINITION. The statements for the provers, from the numbered rules of spec/. A result is stated in the
library's integer terms (`BitVec.toInt`, `Int.tdiv`, `Int.tmod`), not by the model's own functions, and a next
state is stated whole, so that each such statement holds the instruction's frame: everything not named in the
`with` is as it was.
-/

open Sys2Proof Sys2Proof.Machine

/-! ### Reset and the step -/

/-- R26: after reset ALARM_ACTIVE is 0 and UNIT is UNIT_RESET, whatever the instance's parameters. -/
def Obligations.ResetLoadsUnitResetAndClearsAlarm : Prop :=
  State.reset = State.resetOf Config.straps ∧
  ∀ k : Config,
    (State.resetOf k).straps = k ∧ (State.resetOf k).alarmActive = false ∧
    (k.unitReset = .celsius → (State.resetOf k).unit = 0x01) ∧
    (k.unitReset = .fahrenheit → (State.resetOf k).unit = 0x02)

/-- R190, as the host event of log entry 6: a reset sets the two registers and touches nothing else; no
response reports it. -/
def Obligations.ResetEventSetsOnlyTheTwoRegisters : Prop :=
  ∀ (s : State) (rest : List HostEvent), s.host = .reset :: rest →
    step s = .next { s with
      host := rest
      unit := (match s.straps.unitReset with | .celsius => 0x01 | .fahrenheit => 0x02)
      alarmActive := false }

/-- R5: when the host's next event is a command whose record decodes to an instruction, the step is that
instruction's meaning on the state from which the event was taken; nothing else is done around it. -/
def Obligations.StepRunsTheDecodedInstruction : Prop :=
  ∀ (s : State) (c : Command) (rest : List HostEvent) (i : Instr),
    s.host = .command c :: rest → decode c = .instr i → step s = exec i { s with host := rest }

/-- R67: the codes 0x0 and 0xF, and no others, select no operation; the response is ILLEGAL_OP with no result,
whatever stands on the other ports, and no register changes. -/
def Obligations.IllegalOpsAnswerIllegalOp : Prop :=
  (∀ c : Command, decode c = .illegalOp ↔ c.op = 0x0 ∨ c.op = 0xF) ∧
  ∀ (c : Command) (s : State),
    step (s.issue { c with op := 0x0 }) = .next { s with responses := { status := 0x3 } :: s.responses } ∧
    step (s.issue { c with op := 0xF }) = .next { s with responses := { status := 0x3 } :: s.responses }

/-- On a few rows, the operation codes as R66's table gives them in binary, and the two codes without an
operation (R67). The table gives the operand ports no bits: that they are all zero in a table word is the model's
choice (log entry 8, DESIGN CHOICE). -/
def Obligations.TableWordsDecodeToTheirOperations : Prop :=
  decodeTableWord 8 0b0001 = some (.cvtC 0) ∧ decodeTableWord 8 0b0111 = some (.alarmUpd 0) ∧
  decodeTableWord 8 0b1000 = some (.encode 0 0 0 0 false) ∧ decodeTableWord 8 0b1011 = some (.rxRender 0 []) ∧
  decodeTableWord 8 0b1100 = some (.nodeCycle 0) ∧ decodeTableWord 8 0b1101 = some (.setUnit 0) ∧
  decodeTableWord 8 0b0000 = none ∧ decodeTableWord 8 0b1111 = none

/-- The model's choice (log entry 3) for "with no command there is no step" (R5): the step is the model's stop
`noCommand`, and nothing else stops so. -/
def Obligations.NoCommandNoStep : Prop :=
  ∀ s : State, step s = .fault .noCommand ↔ s.host = []

/-- The model's choice (log entry 7) for U5: a format X record whose data does not have `rx_len` bytes, which
the port cannot hold, is refused; no other record is. -/
def Obligations.OnlyMissizedReceiveRecordsAreRefused : Prop :=
  ∀ (c : Command) (s : State),
    step (s.issue c) = .refused .rxSizeMismatch ↔
      (c.op = 0x9 ∨ c.op = 0xB) ∧ c.rxData.length ≠ c.rxLen.toNat

/-- Decoding and encoding agree (R61, R65, R66): a well-formed instruction's record decodes to it, and an
instruction read from any record encodes to a record with that code and those operands on every port its
format lists. -/
def Obligations.DecodeAndEncodeAgree : Prop :=
  (∀ i : Instr, i.wellFormed = true → decode (encode i) = .instr i) ∧
  (∀ (c : Command) (i : Instr), decode c = .instr i →
    i.wellFormed = true ∧ (encode i).op = c.op ∧ ∀ p ∈ i.op.format.ports, p.agree (encode i) c)

/-- R73: records that agree on the code and on the ports of its format decode alike and answer alike, whatever
stands on the other ports. -/
def Obligations.UnlistedPortsAreIgnored : Prop :=
  ∀ (c c' : Command) (op : Op), Op.ofCode c.op = some op → c'.op = c.op →
    (∀ p ∈ op.format.ports, p.agree c c') →
    decode c = decode c' ∧ ∀ s : State, step (s.issue c) = step (s.issue c')

/-! ### Converter -/

/-- R91: CVT_C returns raw·4 exactly, for every record with code 0x1. -/
def Obligations.CvtCReturnsRawTimesFour : Prop :=
  ∀ (c : Command) (s : State),
    decode { c with op := 0x1 } = .instr (.cvtC c.raw) ∧
    ∃ w : Word, w.toInt = c.raw.toInt * 4 ∧ -131072 ≤ w.toInt ∧ w.toInt ≤ 131068 ∧
      exec (.cvtC c.raw) s =
        .next { s with responses := { status := 0x0, res := some w } :: s.responses }

/-- R92: CVT_FCENTI returns raw·45 + 3200 exactly, for every record with code 0x2. -/
def Obligations.CvtFcentiReturnsHundredths : Prop :=
  ∀ (c : Command) (s : State),
    decode { c with op := 0x2 } = .instr (.cvtFcenti c.raw) ∧
    ∃ w : Word, w.toInt = c.raw.toInt * 45 + 3200 ∧ -1471360 ≤ w.toInt ∧ w.toInt ≤ 1477715 ∧
      exec (.cvtFcenti c.raw) s =
        .next { s with responses := { status := 0x0, res := some w } :: s.responses }

/-- R93: CVT_F returns (raw·45 + 3200)·16 / 100 truncated toward zero, for every record with code 0x3. -/
def Obligations.CvtFReturnsTruncatedFahrenheit : Prop :=
  ∀ (c : Command) (s : State),
    decode { c with op := 0x3 } = .instr (.cvtF c.raw) ∧
    ∃ w : Word, w.toInt = Int.tdiv ((c.raw.toInt * 45 + 3200) * 16) 100 ∧
      -235417 ≤ w.toInt ∧ w.toInt ≤ 236434 ∧
      exec (.cvtF c.raw) s =
        .next { s with responses := { status := 0x0, res := some w } :: s.responses }

/-- R94: WHOLE_C returns raw / 4 truncated toward zero, for every record with code 0x4. -/
def Obligations.WholeCReturnsTruncatedQuarter : Prop :=
  ∀ (c : Command) (s : State),
    decode { c with op := 0x4 } = .instr (.wholeC c.raw) ∧
    ∃ w : Word, w.toInt = Int.tdiv c.raw.toInt 4 ∧ -8192 ≤ w.toInt ∧ w.toInt ≤ 8191 ∧
      exec (.wholeC c.raw) s =
        .next { s with responses := { status := 0x0, res := some w } :: s.responses }

/-- R95: CVT converts in the unit of register UNIT, delivers the low 16 bits of the exact result and sets `ovf`
exactly when the result does not fit. -/
def Obligations.CvtNarrowsTheSelectedConversion : Prop :=
  ∀ (c : Command) (s : State),
    decode { c with op := 0x5 } = .instr (.cvt c.raw) ∧
    ∃ (v32 : Int) (v : Half),
      v32 = (if s.unit = 0x01 then c.raw.toInt * 4
             else Int.tdiv ((c.raw.toInt * 45 + 3200) * 16) 100) ∧
      (65536 : Int) ∣ v32 - v.toInt ∧
      exec (.cvt c.raw) s = .next { s with
        responses :=
          { status := 0x0, value16 := some v, ovf := some (decide (v32 < -32768 ∨ 32767 < v32)) } ::
            s.responses }

/-- R98: the ranges of `raw` whose conversion fits 16 bits, and that CVT's `ovf` is 0 exactly there. -/
def Obligations.OvfIsZeroExactlyInTheFitRange : Prop :=
  ∀ (raw : Half) (s : State), s.unitLegal → ∃ (v : Half) (o : Bool),
    exec (.cvt raw) s =
      .next { s with responses := { status := 0x0, value16 := some v, ovf := some o } :: s.responses } ∧
    (s.unit = 0x01 → (o = false ↔ -8192 ≤ raw.toInt ∧ raw.toInt ≤ 8191)) ∧
    (s.unit = 0x02 → (o = false ↔ -4622 ≤ raw.toInt ∧ raw.toInt ≤ 4479))

/-- R95, U1: inside the envelope (`ovf` is 0) the 16-bit value of CVT and of NODE_CYCLE is the exact conversion
in the selected unit. -/
def Obligations.ValueIsExactInsideTheEnvelope : Prop :=
  ∀ (raw : Half) (s : State) (i : Instr), i = .cvt raw ∨ i = .nodeCycle raw →
    ∃ (t : State) (r : Response) (v : Half),
      exec i s = .next t ∧ t.responses = r :: s.responses ∧ r.value16 = some v ∧
      (r.inEnvelope = true →
        v.toInt = if s.unit = 0x01 then raw.toInt * 4 else Int.tdiv ((raw.toInt * 45 + 3200) * 16) 100)

/-- R97: the law of the exact Celsius conversion, over every integer. -/
def Obligations.CelsiusConversionLaw : Prop :=
  ∀ t : Int, tdiv (toCelsiusFixed t) 16 = tdiv t 4

/-- R99, the Fahrenheit half: truncation toward zero loses at most one unit of 1/16 degree. -/
def Obligations.FahrenheitTruncationLosesLessThanOneUnit : Prop :=
  ∀ raw : Int,
    let c := toFahrenheitCenti raw
    let res := toFahrenheitFixed raw
    (0 ≤ c → res * 100 ≤ c * 16 ∧ c * 16 < (res + 1) * 100) ∧
    (c < 0 → (res - 1) * 100 < c * 16 ∧ c * 16 ≤ res * 100)

/-- R96: every intermediate and every result of the family stays far inside the signed 32-bit range, so the
narrowing into `res` changes nothing. -/
def Obligations.ConverterNeverOverflowsItsDatapath : Prop :=
  ∀ raw : Half,
    |(raw.toInt * 45 + 3200) * 16| ≤ 23643440 ∧
    (toRes (toCelsiusFixed raw.toInt)).toInt = toCelsiusFixed raw.toInt ∧
    (toRes (toFahrenheitCenti raw.toInt)).toInt = toFahrenheitCenti raw.toInt ∧
    (toRes (toFahrenheitFixed raw.toInt)).toInt = toFahrenheitFixed raw.toInt ∧
    (toRes (wholeDegreesC raw.toInt)).toInt = wholeDegreesC raw.toInt

/-- R12, R193: for a negative dividend that is no multiple of the divisor, truncation is one above the
arithmetic shift, for the shifts by 2 and by 4 that an implementer might use. -/
def Obligations.TruncationIsNotAnArithmeticShift : Prop :=
  ∀ x : Int, x < 0 →
    (¬ (4 : Int) ∣ x → tdiv x 4 = (x >>> (2 : Nat)) + 1) ∧ (¬ (16 : Int) ∣ x → tdiv x 16 = (x >>> (4 : Nat)) + 1)

/-- R15: `wrap16` is the unique signed 16-bit value congruent to its argument modulo 65536. -/
def Obligations.Wrap16IsTheUniqueCongruentValue : Prop :=
  ∀ v : Int,
    (-32768 ≤ (wrap16 v).toInt ∧ (wrap16 v).toInt ≤ 32767 ∧ (65536 : Int) ∣ v - (wrap16 v).toInt) ∧
    ∀ w : Int, -32768 ≤ w → w ≤ 32767 → (65536 : Int) ∣ v - w → w = (wrap16 v).toInt

/-! ### Alarm -/

/-- R110: CMP is the strict signed comparison of its two operands, for every record with code 0x6. -/
def Obligations.CmpIsStrictSignedComparison : Prop :=
  ∀ (c : Command) (s : State),
    decode { c with op := 0x6 } = .instr (.cmp c.whole c.thr) ∧
    exec (.cmp c.whole c.thr) s = .next { s with
      responses := { status := 0x0, active := some (decide (c.whole.toInt > c.thr.toInt)) } :: s.responses }

/-- R75: CMPD is CMP with threshold 23. -/
def Obligations.CmpdComparesWithTwentyThree : Prop :=
  ∀ (w : Half) (s : State),
    exec (Instr.cmpd w) s = .next { s with
      responses := { status := 0x0, active := some (decide (w.toInt > 23)) } :: s.responses }

/-- R111: ALARM_UPD assigns `whole > THRESHOLD` to ALARM_ACTIVE and reports the edges, for every record with
code 0x7. -/
def Obligations.AlarmUpdAssignsAndReportsEdges : Prop :=
  ∀ (c : Command) (s : State),
    decode { c with op := 0x7 } = .instr (.alarmUpd c.whole) ∧
    ∃ new : Bool, new = decide (c.whole.toInt > s.straps.threshold.toInt) ∧
      exec (.alarmUpd c.whole) s = .next { s with
        alarmActive := new
        responses :=
          { status := 0x0
            active := some new
            rise := some (decide (s.alarmActive = false ∧ new = true))
            fall := some (decide (s.alarmActive = true ∧ new = false)) } :: s.responses }

/-- R114: which raw readings a node cycle finds above the threshold; the fraction of a degree is discarded
toward zero first. -/
def Obligations.AlarmThresholdInRawTicks : Prop :=
  ∀ (raw : Half) (s : State), ∃ t : State, exec (.nodeCycle raw) s = .next t ∧
    (0 ≤ s.straps.threshold.toInt →
      (t.alarmActive = true ↔ raw.toInt ≥ 4 * (s.straps.threshold.toInt + 1))) ∧
    (s.straps.threshold.toInt ≤ -1 →
      (t.alarmActive = true ↔ raw.toInt ≥ 4 * s.straps.threshold.toInt + 1))

/-- R113: the alarm half of every operation is the same whatever UNIT holds. -/
def Obligations.AlarmDoesNotReadTheUnit : Prop :=
  ∀ (i : Instr) (s : State) (u : Byte),
    (∃ w th, i = .cmp w th) ∨ (∃ w, i = .alarmUpd w) ∨ (∃ raw, i = .nodeCycle raw) →
    ∃ (t t' : State) (r r' : Response),
      exec i s = .next t ∧ exec i { s with unit := u } = .next t' ∧
      t.responses = r :: s.responses ∧ t'.responses = r' :: s.responses ∧
      t'.alarmActive = t.alarmActive ∧ r'.active = r.active ∧ r'.rise = r.rise ∧ r'.fall = r.fall

/-! ### Codec and frame buffer -/

/-- R120: the eight bytes ENCODE produces, in either byte order, for every record with code 0x8. -/
def Obligations.EncodeLaysOutTheEightBytes : Prop :=
  ∀ (c : Command) (s : State),
    decode { c with op := 0x8 } = .instr (.encode c.nodeId c.unit c.value c.alarmType c.alarmActive) ∧
    exec (.encode c.nodeId c.unit c.value c.alarmType c.alarmActive) s = .next { s with
      responses :=
        { status := 0x0
          frame := some (match s.straps.byteOrder with
            | .le => #v[0x55, 0x01, c.nodeId, c.unit, c.value.extractLsb' 0 8, c.value.extractLsb' 8 8,
                c.alarmType, if c.alarmActive then 0x01 else 0x00]
            | .be => #v[0x55, 0x01, c.nodeId, c.unit, c.value.extractLsb' 8 8, c.value.extractLsb' 0 8,
                c.alarmType, if c.alarmActive then 0x01 else 0x00]) } :: s.responses }

/-- R46: ENCODE writes all eight bytes, so the frame does not depend on what the fresh buffer held. -/
def Obligations.FrameDoesNotDependOnTheFreshBuffer : Prop :=
  ∀ (order : ByteOrder) (f g : FrameBuffer) (n u : Byte) (v : Half) (t : Byte) (a : Bool),
    writeFrame order f n u v t a = writeFrame order g n u v t a

/-- R121: DECODE's three outcomes. The length is judged from `rx_len` alone, then the first byte; otherwise
the seven fields are returned as found. -/
def Obligations.DecodeChecksLengthThenFlagThenReturnsFields : Prop :=
  (∀ c : Command, c.rxData.length = c.rxLen.toNat →
    decode { c with op := 0x9 } = .instr (.decode c.rxLen c.rxData)) ∧
  (∀ (rxLen : Half) (rxData : List Byte) (s : State), rxLen ≠ 8 →
    exec (.decode rxLen rxData) s = .next { s with responses := { status := 0x1 } :: s.responses }) ∧
  (∀ (b : FrameBuffer) (s : State), b[0] ≠ 0x55 →
    exec (.decode 8 b.toList) s = .next { s with responses := { status := 0x2 } :: s.responses }) ∧
  (∀ (b : FrameBuffer) (s : State), b[0] = 0x55 →
    exec (.decode 8 b.toList) s = .next { s with
      responses :=
        { status := 0x0
          fStartFlag := some b[0], fFrameId := some b[1], fNodeId := some b[2], fUnit := some b[3]
          fValue := some (match s.straps.byteOrder with
            | .le => b[5] ++ b[4]
            | .be => b[4] ++ b[5])
          fAlarmType := some b[6], fAlarmStatus := some b[7] } :: s.responses })

/-- R122: DECODE of ENCODE's frame, on any two instances with the same byte order, returns the fields; and
encoding a decoded well-flagged buffer gives it back exactly when its frame id is 0x01 and its alarm status is
0 or 1. -/
def Obligations.FrameRoundTrip : Prop :=
  (∀ (s s' : State) (n u : Byte) (v : Half) (ty : Byte) (a : Bool),
    s.straps.byteOrder = s'.straps.byteOrder →
    ∃ f : FrameBuffer,
      exec (.encode n u v ty a) s =
        .next { s with responses := { status := 0x0, frame := some f } :: s.responses } ∧
      exec (.decode 8 f.toList) s' = .next { s' with
        responses :=
          { status := 0x0
            fStartFlag := some 0x55, fFrameId := some 0x01, fNodeId := some n, fUnit := some u
            fValue := some v, fAlarmType := some ty
            fAlarmStatus := some (if a then 0x01 else 0x00) } :: s'.responses }) ∧
  (∀ (order : ByteOrder) (b : FrameBuffer), b[0] = 0x55 →
    ((∃ a : Bool, encodeFrame order (readFields order b).nodeId (readFields order b).unit
        (readFields order b).value (readFields order b).alarmType a = b) ↔
      b[1] = 0x01 ∧ (b[7] = 0x00 ∨ b[7] = 0x01)))

/-- R196: a frame made under one byte order still decodes with status OK under the other, and the value comes
out with its two bytes exchanged. -/
def Obligations.ByteOrderMismatchSwapsTheValue : Prop :=
  ∀ (s s' : State) (n u : Byte) (v : Half) (ty : Byte) (a : Bool),
    s.straps.byteOrder ≠ s'.straps.byteOrder →
    ∃ f : FrameBuffer,
      exec (.encode n u v ty a) s =
        .next { s with responses := { status := 0x0, frame := some f } :: s.responses } ∧
      exec (.decode 8 f.toList) s' = .next { s' with
        responses :=
          { status := 0x0
            fStartFlag := some 0x55, fFrameId := some 0x01, fNodeId := some n, fUnit := some u
            fValue := some (v.extractLsb' 0 8 ++ v.extractLsb' 8 8), fAlarmType := some ty
            fAlarmStatus := some (if a then 0x01 else 0x00) } :: s'.responses }

/-- R44, R45: a 16-bit read after a write at the same offset gives the value written, under either byte order,
and every byte outside the two written reads as before. -/
def Obligations.BufferReadAfterWrite : Prop :=
  ∀ (order : ByteOrder) (b : FrameBuffer) (o : Fin 7) (v : Half),
    memRead16 order (memWrite16 order b o v) o = v ∧
    ∀ p : Fin 8, p.val ≠ o.val → p.val ≠ o.val + 1 → memRead8 (memWrite16 order b o v) p = memRead8 b p

/-! ### Render -/

/-- R135: SPLIT's three results, for every record with code 0xA. -/
def Obligations.SplitReturnsWholeFractionAndLetter : Prop :=
  ∀ (c : Command) (s : State),
    decode { c with op := 0xA } = .instr (.split c.unit c.value) ∧
    ∃ (w : Half) (f : BitVec 14),
      w.toInt = Int.tdiv c.value.toInt 16 ∧
      (f.toNat : Int) = Int.tdiv (|Int.tmod c.value.toInt 16| * 10000) 16 ∧
      exec (.split c.unit c.value) s = .next { s with
        responses :=
          { status := 0x0, wholePart := some w, fracPart := some f
            unitLetter := some (if c.unit = 0x01 then 0x43 else 0x46) } :: s.responses }

/-- R141: between -16 and 0 the sign is lost, the results are those of the magnitude; from -16 down the whole
part carries it. -/
def Obligations.SplitLosesTheSignOfSmallValues : Prop :=
  ∀ (u : Byte) (v : Half) (s : State),
    (-16 < v.toInt → v.toInt < 0 → exec (.split u v) s = exec (.split u (-v)) s) ∧
    (v.toInt ≤ -16 → ∃ (t : State) (r : Response) (w : Half),
      exec (.split u v) s = .next t ∧ t.responses = r :: s.responses ∧ r.wholePart = some w ∧ w.toInt < 0)

/-- R140: RX_RENDER has DECODE's two errors, and otherwise DECODE's fields together with SPLIT's results on
the decoded unit and value. -/
def Obligations.RxRenderIsDecodeThenSplit : Prop :=
  (∀ c : Command, c.rxData.length = c.rxLen.toNat →
    decode { c with op := 0xB } = .instr (.rxRender c.rxLen c.rxData)) ∧
  (∀ (rxLen : Half) (rxData : List Byte) (s : State), rxLen ≠ 8 →
    exec (.rxRender rxLen rxData) s = .next { s with responses := { status := 0x1 } :: s.responses }) ∧
  (∀ (b : FrameBuffer) (s : State), b[0] ≠ 0x55 →
    exec (.rxRender 8 b.toList) s = .next { s with responses := { status := 0x2 } :: s.responses }) ∧
  (∀ (b : FrameBuffer) (s : State), b[0] = 0x55 →
    ∃ (v w : Half) (f : BitVec 14),
      v = (match s.straps.byteOrder with | .le => b[5] ++ b[4] | .be => b[4] ++ b[5]) ∧
      w.toInt = Int.tdiv v.toInt 16 ∧
      (f.toNat : Int) = Int.tdiv (|Int.tmod v.toInt 16| * 10000) 16 ∧
      exec (.rxRender 8 b.toList) s = .next { s with
        responses :=
          { status := 0x0
            fStartFlag := some b[0], fFrameId := some b[1], fNodeId := some b[2], fUnit := some b[3]
            fValue := some v, fAlarmType := some b[6], fAlarmStatus := some b[7]
            wholePart := some w, fracPart := some f
            unitLetter := some (if b[3] = 0x01 then 0x43 else 0x46) } :: s.responses })

/-- R139: `dec` writes the number it is given, in decimal digits, with no leading zero. -/
def Obligations.DecimalNumeralsAreExact : Prop :=
  ∀ n : Nat,
    (decimal n).foldl (fun acc d => 10 * acc + (d.toNat - 0x30)) 0 = n ∧
    (∀ d ∈ decimal n, 0x30 ≤ d.toNat ∧ d.toNat ≤ 0x39) ∧
    (0 < n → (decimal n).head? ≠ some 0x30) ∧ (n = 0 → decimal n = [0x30])

/-- R139: the record of a rendered frame, put together from the response's ports; a frame that fails to
decode, and every response but RX_RENDER's, yields none. -/
def Obligations.OnlyRenderedFramesYieldACsvRecord : Prop :=
  ∀ (i : Instr) (s t : State) (r : Response), exec i s = .next t → t.responses = r :: s.responses →
    ((csvRecord r).isSome = true ↔ r.status = 0x0 ∧ ∃ n l, i = .rxRender n l) ∧
    (∀ n u w f ty a, r.fNodeId = some n → r.unitLetter = some u → r.wholePart = some w → r.fracPart = some f →
      r.fAlarmType = some ty → r.fAlarmStatus = some a →
      csvRecord r = some (decimal n.toNat ++ [0x3B, u, 0x3B] ++
        (if w.toInt < 0 then [0x2D] else []) ++ decimal w.toInt.natAbs ++ [0x2E] ++
        List.replicate (4 - (decimal f.toNat).length) 0x30 ++ decimal f.toNat ++ [0x3B] ++
        decimal ty.toNat ++ [0x3B] ++ decimal a.toNat))

/-! ### Node cycle -/

/-- R150: NODE_CYCLE's results, its frame and its one register write, for every record with code 0xC. -/
def Obligations.NodeCycleChainsAlarmConversionAndEncoding : Prop :=
  ∀ (c : Command) (s : State),
    decode { c with op := 0xC } = .instr (.nodeCycle c.raw) ∧
    ∃ (new : Bool) (v32 : Int) (v : Half),
      new = decide (Int.tdiv c.raw.toInt 4 > s.straps.threshold.toInt) ∧
      v32 = (if s.unit = 0x01 then c.raw.toInt * 4
             else Int.tdiv ((c.raw.toInt * 45 + 3200) * 16) 100) ∧
      (65536 : Int) ∣ v32 - v.toInt ∧
      exec (.nodeCycle c.raw) s = .next { s with
        alarmActive := new
        responses :=
          { status := 0x0
            value16 := some v
            ovf := some (decide (v32 < -32768 ∨ 32767 < v32))
            active := some new
            rise := some (decide (s.alarmActive = false ∧ new = true))
            fall := some (decide (s.alarmActive = true ∧ new = false))
            frame := some (match s.straps.byteOrder with
              | .le => #v[0x55, 0x01, s.straps.nodeId, s.unit, v.extractLsb' 0 8, v.extractLsb' 8 8, 0x01,
                  if new then 0x01 else 0x00]
              | .be => #v[0x55, 0x01, s.straps.nodeId, s.unit, v.extractLsb' 8 8, v.extractLsb' 0 8, 0x01,
                  if new then 0x01 else 0x00]) } :: s.responses }

/-- R151: NODE_CYCLE equals, in state change and in results, WHOLE_C, ALARM_UPD, CVT and ENCODE issued one
after the other, each fed with the results before it. -/
def Obligations.NodeCycleEqualsItsSequence : Prop :=
  ∀ (raw : Half) (s : State),
    ∃ (w : Word) (v : Half) (o a ri fa : Bool) (f : FrameBuffer) (s1 s2 s3 s4 : State),
      s1 = { s with responses := { status := 0x0, res := some w } :: s.responses } ∧
      exec (.wholeC raw) s = .next s1 ∧
      (w.setWidth 16).toInt = w.toInt ∧
      s2 = { s1 with
        alarmActive := a
        responses :=
          { status := 0x0, active := some a, rise := some ri, fall := some fa } :: s1.responses } ∧
      exec (.alarmUpd (w.setWidth 16)) s1 = .next s2 ∧
      s3 = { s2 with
        responses := { status := 0x0, value16 := some v, ovf := some o } :: s2.responses } ∧
      exec (.cvt raw) s2 = .next s3 ∧
      s4 = { s3 with responses := { status := 0x0, frame := some f } :: s3.responses } ∧
      exec (.encode s.straps.nodeId s.unit v 0x01 a) s3 = .next s4 ∧
      exec (.nodeCycle raw) s = .next { s with
        alarmActive := s4.alarmActive
        responses :=
          { status := 0x0, value16 := some v, ovf := some o, active := some a, rise := some ri
            fall := some fa, frame := some f } :: s.responses } ∧
      s4.unit = s.unit ∧ s4.straps = s.straps

/-- R153: a second NODE_CYCLE on the same reading finds the same alarm state and reports no edge. -/
def Obligations.RepeatedNodeCycleReportsNoEdge : Prop :=
  ∀ (raw : Half) (s : State), ∃ (t u : State) (r : Response),
    exec (.nodeCycle raw) s = .next t ∧ exec (.nodeCycle raw) t = .next u ∧ u.block = t.block ∧
    u.responses = r :: t.responses ∧ r.rise = some false ∧ r.fall = some false

/-- R125: from a legal UNIT, NODE_CYCLE produces a valid Frame, whatever the reading, overflow included. -/
def Obligations.NodeCycleProducesValidFrames : Prop :=
  ∀ (raw : Half) (s : State), s.unitLegal → ∃ (t : State) (r : Response) (f : FrameBuffer),
    exec (.nodeCycle raw) s = .next t ∧ t.responses = r :: s.responses ∧ r.frame = some f ∧
    (readFields s.straps.byteOrder f).valid = true

/-- From a node to a collector of the same byte order, the bytes arriving unchanged: the collector's
RX_RENDER shows the node's id, unit, value and alarm, and when nothing overflowed in Celsius the whole part
it prints is the reading's whole degrees (R97, R136, R140, R150). -/
def Obligations.NodeReadingArrivesAtTheCollector : Prop :=
  ∀ (raw : Half) (node collector : State), node.straps.byteOrder = collector.straps.byteOrder →
    ∃ (t u : State) (r r' : Response) (f : FrameBuffer),
      exec (.nodeCycle raw) node = .next t ∧ t.responses = r :: node.responses ∧ r.frame = some f ∧
      exec (.rxRender 8 f.toList) collector = .next u ∧ u.responses = r' :: collector.responses ∧
      r'.status = 0x0 ∧ r'.fNodeId = some node.straps.nodeId ∧ r'.fUnit = some node.unit ∧
      r'.fValue = r.value16 ∧ r'.fAlarmStatus = some (if t.alarmActive then 0x01 else 0x00) ∧
      u.block = collector.block ∧
      (node.unit = 0x01 → r.ovf = some false →
        ∃ w : Half, r'.wholePart = some w ∧ w.toInt = Int.tdiv raw.toInt 4)

/-! ### System and errors -/

/-- R160: SET_UNIT writes UNIT for the two members of the enum and raises BadUnit for every other byte, for
every record with code 0xD. -/
def Obligations.SetUnitAcceptsOnlyTheTwoUnits : Prop :=
  ∀ (c : Command) (s : State),
    decode { c with op := 0xD } = .instr (.setUnit c.unit) ∧
    exec (.setUnit c.unit) s =
      .next (if c.unit = 0x01 ∨ c.unit = 0x02
        then { s with unit := c.unit, responses := { status := 0x0 } :: s.responses }
        else { s with responses := { status := 0x4 } :: s.responses })

/-- R161: STATUS reports the two registers and three of the parameters and changes nothing, for every record
with code 0xE. -/
def Obligations.StatusReportsStateAndParameters : Prop :=
  ∀ (c : Command) (s : State),
    decode { c with op := 0xE } = .instr .status ∧
    exec .status s = .next { s with
      responses :=
        { status := 0x0
          sUnit := some s.unit, sAlarmActive := some s.alarmActive
          sNodeId := some s.straps.nodeId, sThreshold := some s.straps.threshold
          sByteOrder := some (decide (s.straps.byteOrder = .be)) } :: s.responses }

/-- R170, R173: which of the four errors a command ends with, and in which order they are tried; every command
the ports can hold is answered. -/
def Obligations.EachCommandEndsWithTheStatusOfItsFirstError : Prop :=
  ∀ (c : Command) (s : State), expressible c = true →
    ∃ (t : State) (r : Response),
      step (s.issue c) = .next t ∧ t.responses = r :: s.responses ∧ r.status = statusOf c

/-- R172: an error is precise. A command whose response is not OK leaves every register as it was and produces
no result port. -/
def Obligations.ErrorsChangeNothingAndProduceNothing : Prop :=
  ∀ (c : Command) (s t : State) (r : Response),
    step (s.issue c) = .next t → t.responses = r :: s.responses → r.status ≠ 0x0 →
    t = { s with responses := { status := r.status } :: s.responses }

/-- R63: a response with status OK carries exactly the result ports of its operation, any other none. -/
def Obligations.ResponsesCarryExactlyTheirPorts : Prop :=
  ∀ (i : Instr) (s t : State) (r : Response), exec i s = .next t → t.responses = r :: s.responses →
    (r.status = 0x0 → r.produced = opResultPorts i.op) ∧ (r.status ≠ 0x0 → r.produced = [])

/-! ### Who reads and writes what -/

/-- R28, the writes: only SET_UNIT writes UNIT, only ALARM_UPD and NODE_CYCLE write ALARM_ACTIVE, nothing
writes a parameter, and each command adds one response. -/
def Obligations.OnlyTheListedOperationsWriteRegisters : Prop :=
  ∀ (i : Instr) (s t : State), exec i s = .next t →
    t.straps = s.straps ∧ t.host = s.host ∧ (∃ r, t.responses = r :: s.responses) ∧
    (t.unit ≠ s.unit → ∃ u, i = .setUnit u) ∧
    (t.alarmActive ≠ s.alarmActive → (∃ w, i = .alarmUpd w) ∨ ∃ raw, i = .nodeCycle raw)

/-- R28, the reads: an operation's response depends on nothing of the block but what the access table marks
with r for it. -/
def Obligations.ResponsesDependOnlyOnTheListedReads : Prop :=
  ∀ (i : Instr) (s s' t t' : State) (r r' : Response),
    exec i s = .next t → exec i s' = .next t' →
    t.responses = r :: s.responses → t'.responses = r' :: s'.responses →
    (opReads i.op).agree s s' → r = r'

/-- R48: a register read by a command holds what the latest earlier command wrote: UNIT after SET_UNIT,
ALARM_ACTIVE after ALARM_UPD, both seen by STATUS. -/
def Obligations.ReadsSeeTheLatestWrite : Prop :=
  ∀ (u : Byte) (w : Half) (s : State), u = 0x01 ∨ u = 0x02 →
    ∃ (s1 s2 s3 : State) (r : Response),
      exec (.setUnit u) s = .next s1 ∧ exec (.alarmUpd w) s1 = .next s2 ∧ exec .status s2 = .next s3 ∧
      s3.responses = r :: s2.responses ∧ r.sUnit = some u ∧
      r.sAlarmActive = some (decide (w.toInt > s.straps.threshold.toInt))

/-- R25, R27: the block has no other state. Two states equal in registers and parameters answer a command with
the same response and the same registers, whatever was answered before and whatever the host does later. -/
def Obligations.NoHiddenState : Prop :=
  ∀ (c : Command) (s s' t : State), s.block = s'.block → step (s.issue c) = .next t →
    ∃ (t' : State) (r : Response), step (s'.issue c) = .next t' ∧ t'.block = t.block ∧
      t.responses = r :: s.responses ∧ t'.responses = r :: s'.responses

/-! ### Invariants and runs -/

/-- The invariant holds right after reset, whatever the parameters. -/
def Obligations.InvariantHoldsAtReset : Prop :=
  State.reset.Inv ∧ ∀ (k : Config) (events : List HostEvent), { State.resetOf k with host := events }.Inv

/-- The invariant is kept by every step, from every state that has it: UNIT stays a member of the enum (R22),
and every response given has the shape and ranges of R63. -/
def Obligations.StepKeepsTheInvariant : Prop :=
  ∀ s t : State, s.Inv → step s = .next t → t.Inv

/-- R22 over runs: from reset of any instance, whatever the host issues, UNIT holds 0x01 or 0x02 after any
number of steps. -/
def Obligations.UnitIsLegalInEveryRun : Prop :=
  ∀ (k : Config) (events : List HostEvent) (n : Nat) (t : State),
    Sys2Proof.core.run n { State.resetOf k with host := events } = .next t → t.unit = 0x01 ∨ t.unit = 0x02

/-- R5, R48, R176 over runs: a host script whose records the ports can hold is carried out to its end. No
command stops the block, each command is answered by exactly one response, and the answers already given stay. -/
def Obligations.EveryCommandIsAnswered : Prop :=
  ∀ (n : Nat) (s : State), s.hostExpressible = true → n ≤ s.host.length →
    ∃ (t : State) (new : List Response),
      Sys2Proof.core.run n s = .next t ∧ t.host = s.host.drop n ∧ t.straps = s.straps ∧
      t.responses = new ++ s.responses ∧ new.length = commandCount (s.host.take n)
end

