-- ==== Sys2Proof/Laws/Buffer.lean ====
section
/-! SUPPORT. The frame buffer: its length is 8 by its type, so no access leaves it and equal buffers are equal
data; a read after a write gives the value written, and a write leaves every other offset alone. -/

namespace Sys2Proof.Laws

open Sys2Proof.Machine

/-- Every buffer has exactly 8 bytes (R40); every operation keeps that, by its type. -/
theorem buffer_size (b : FrameBuffer) : b.toList.length = 8 := by simp

@[simp] theorem memRead8_memWrite8_same (b : FrameBuffer) (o : Fin 8) (v : Byte) :
    memRead8 (memWrite8 b o v) o = v := by
  simp [memRead8, memWrite8]

theorem memRead8_memWrite8_other (b : FrameBuffer) {o p : Fin 8} (h : p ≠ o) (v : Byte) :
    memRead8 (memWrite8 b o v) p = memRead8 b p := by
  have : o.val ≠ p.val := fun e => h (Fin.ext e.symm)
  simp [memRead8, memWrite8, this]

/-- The two halves of a 16-bit pattern put together again. -/
@[simp] theorem halves_append (v : Half) : v.extractLsb' 8 8 ++ v.extractLsb' 0 8 = v := by
  ext i h
  simp only [BitVec.getElem_append, BitVec.getElem_extractLsb']
  split <;> simp_all [BitVec.getLsbD_eq_getElem]

@[simp] theorem high_of_append (a b : Byte) : (a ++ b).extractLsb' 8 8 = a := by
  ext i h
  rw [BitVec.getElem_extractLsb', BitVec.getLsbD_append]
  simp [← BitVec.getLsbD_eq_getElem]

@[simp] theorem low_of_append (a b : Byte) : (a ++ b).extractLsb' 0 8 = b := by
  ext i h
  rw [BitVec.getElem_extractLsb', BitVec.getLsbD_append]
  simp [← BitVec.getLsbD_eq_getElem, h]

/-- The bytes of an encoded frame in little-endian order (R41, R42, R120). -/
theorem encodeFrame_le (n u : Byte) (v : Half) (t : Byte) (a : Bool) :
    encodeFrame .le n u v t a =
      #v[0x55, 0x01, n, u, v.extractLsb' 0 8, v.extractLsb' 8 8, t, u8 a] := rfl

/-- The bytes of an encoded frame in big-endian order (R41, R42, R120). -/
theorem encodeFrame_be (n u : Byte) (v : Half) (t : Byte) (a : Bool) :
    encodeFrame .be n u v t a =
      #v[0x55, 0x01, n, u, v.extractLsb' 8 8, v.extractLsb' 0 8, t, u8 a] := rfl

/-- A received sequence of 8 bytes is that buffer. -/
@[simp] theorem rxBuffer_toList (b : FrameBuffer) : rxBuffer b.toList = some b := by
  unfold rxBuffer
  rw [dif_pos (buffer_size b)]
  exact congrArg some (Vector.toArray_inj.mp (by simp [Vector.toList]))

/-- Everything `rxBuffer` can do. -/
theorem rxBuffer_eq_some {l : List Byte} {b : FrameBuffer} : rxBuffer l = some b ↔ l = b.toList := by
  constructor
  · intro h
    unfold rxBuffer at h
    split at h
    · cases h
      simp
    · cases h
  · rintro rfl
    simp

/-- A sequence of another length is no frame buffer. -/
theorem rxBuffer_eq_none {l : List Byte} : rxBuffer l = none ↔ l.length ≠ 8 := by
  unfold rxBuffer
  split <;> simp_all

end Sys2Proof.Laws
end

