-- ==== Sys2Proof/Laws/Operands.lean ====
section
/-! SUPPORT. The integer arithmetic of the rules in the library's terms, narrowing, and the one-bit
results. -/

namespace Sys2Proof.Laws

open Sys2Proof.Machine

/-- R12's formula is the library's truncating division. -/
theorem tdiv_eq (a b : Int) : tdiv a b = Int.tdiv a b := by
  unfold tdiv
  rcases Int.lt_trichotomy a 0 with ha | rfl | ha <;> rcases Int.lt_trichotomy b 0 with hb | rfl | hb <;>
    try simp only [Int.sign_zero, Int.zero_mul, Int.mul_zero, Int.zero_tdiv, Int.tdiv_zero]
  · obtain ⟨m, rfl⟩ := Int.eq_negSucc_of_lt_zero ha
    obtain ⟨n, rfl⟩ := Int.eq_negSucc_of_lt_zero hb
    simp [Int.tdiv]
  · obtain ⟨m, rfl⟩ := Int.eq_negSucc_of_lt_zero ha
    obtain ⟨n, rfl⟩ := Int.eq_ofNat_of_zero_le hb.le
    rw [Int.sign_eq_one_of_pos hb]
    simp [Int.tdiv]
  · obtain ⟨m, rfl⟩ := Int.eq_ofNat_of_zero_le ha.le
    obtain ⟨n, rfl⟩ := Int.eq_negSucc_of_lt_zero hb
    rw [Int.sign_eq_one_of_pos ha]
    simp [Int.tdiv]
  · obtain ⟨m, rfl⟩ := Int.eq_ofNat_of_zero_le ha.le
    obtain ⟨n, rfl⟩ := Int.eq_ofNat_of_zero_le hb.le
    rw [Int.sign_eq_one_of_pos ha, Int.sign_eq_one_of_pos hb]
    simp [Int.tdiv]

/-- R13's remainder is the library's. -/
theorem trem_eq (a b : Int) : trem a b = Int.tmod a b := by
  have := Int.mul_tdiv_add_tmod a b
  rw [trem, tdiv_eq]
  omega

/-- For a non-negative dividend truncation is the floor, in the form omega reads. -/
theorem tdiv_of_nonneg {a b : Int} (h : 0 ≤ a) : tdiv a b = a / b := by
  rw [tdiv_eq, Int.tdiv_eq_ediv_of_nonneg h]

/-- For a negative dividend truncation is minus the floor of the negated dividend. -/
theorem tdiv_of_neg {a b : Int} (h : a < 0) : tdiv a b = -(-a / b) := by
  rw [tdiv_eq, ← Int.neg_neg a, Int.neg_tdiv, Int.tdiv_eq_ediv_of_nonneg (by omega), Int.neg_neg]

/-- `abs` over the integers is `natAbs`. -/
theorem absInt_eq (a : Int) : absInt a = (a.natAbs : Int) := by
  unfold absInt
  split <;> omega

/-- A signed 16-bit port lies in its range (R11). -/
theorem signed16_bounds (v : Half) : -32768 ≤ signed16 v ∧ signed16 v ≤ 32767 := by
  have h1 := BitVec.le_toInt v
  have h2 := BitVec.toInt_lt (x := v)
  unfold signed16
  norm_num at h1 h2
  omega

/-- What `wrap16` reads as (R15). -/
theorem wrap16_toInt (v : Int) : (wrap16 v).toInt = v.bmod 65536 := by
  simp [wrap16, BitVec.toInt_ofInt]

/-- A value that fits is not changed by `wrap16`. -/
theorem wrap16_toInt_of_fits {v : Int} (h1 : -32768 ≤ v) (h2 : v ≤ 32767) : (wrap16 v).toInt = v := by
  rw [wrap16_toInt]
  exact Int.bmod_eq_of_le (by omega) (by omega)

/-- A value inside the 32-bit range is exact on port `res` (R96). -/
theorem toRes_toInt {v : Int} (h1 : -2147483648 ≤ v) (h2 : v ≤ 2147483647) : (toRes v).toInt = v := by
  unfold toRes
  rw [BitVec.toInt_ofInt]
  exact Int.bmod_eq_of_le (by omega) (by omega)

@[simp] theorem u8_true : u8 true = 0x01 := rfl
@[simp] theorem u8_false : u8 false = 0x00 := rfl

@[simp] theorem fits16_iff (v : Int) : fits16 v = true ↔ -32768 ≤ v ∧ v ≤ 32767 := by
  simp [fits16]

@[simp] theorem overflow_iff (v : Int) : overflow v = true ↔ v < -32768 ∨ 32767 < v := by
  simp [overflow, fits16]

@[simp] theorem above_iff (w t : Int) : above w t = true ↔ t < w := by
  simp [above]

@[simp] theorem riseEdge_iff (o n : Bool) : riseEdge o n = true ↔ o = false ∧ n = true := by
  cases o <;> cases n <;> simp [riseEdge]

@[simp] theorem fallEdge_iff (o n : Bool) : fallEdge o n = true ↔ o = true ∧ n = false := by
  cases o <;> cases n <;> simp [fallEdge]

end Sys2Proof.Laws
end

