-- ==== Sys2Proof/Laws/State.lean ====
section
/-! SUPPORT. One lemma for each field and each update of the state, and what taking the host's next event
can do. -/

namespace Sys2Proof.Laws

open Sys2Proof.Machine

variable (s : State) (b : Byte) (a : Bool) (r : Response) (c : Command)

@[simp] theorem writeUnit_straps : (s.writeUnit b).straps = s.straps := rfl
@[simp] theorem writeUnit_unit : (s.writeUnit b).unit = b := rfl
@[simp] theorem writeUnit_alarmActive : (s.writeUnit b).alarmActive = s.alarmActive := rfl
@[simp] theorem writeUnit_host : (s.writeUnit b).host = s.host := rfl
@[simp] theorem writeUnit_responses : (s.writeUnit b).responses = s.responses := rfl

@[simp] theorem writeAlarm_straps : (s.writeAlarm a).straps = s.straps := rfl
@[simp] theorem writeAlarm_unit : (s.writeAlarm a).unit = s.unit := rfl
@[simp] theorem writeAlarm_alarmActive : (s.writeAlarm a).alarmActive = a := rfl
@[simp] theorem writeAlarm_host : (s.writeAlarm a).host = s.host := rfl
@[simp] theorem writeAlarm_responses : (s.writeAlarm a).responses = s.responses := rfl

@[simp] theorem respond_straps : (s.respond r).straps = s.straps := rfl
@[simp] theorem respond_unit : (s.respond r).unit = s.unit := rfl
@[simp] theorem respond_alarmActive : (s.respond r).alarmActive = s.alarmActive := rfl
@[simp] theorem respond_host : (s.respond r).host = s.host := rfl
@[simp] theorem respond_responses : (s.respond r).responses = r :: s.responses := rfl

@[simp] theorem issue_straps : (s.issue c).straps = s.straps := rfl
@[simp] theorem issue_unit : (s.issue c).unit = s.unit := rfl
@[simp] theorem issue_alarmActive : (s.issue c).alarmActive = s.alarmActive := rfl
@[simp] theorem issue_host : (s.issue c).host = .command c :: s.host := rfl
@[simp] theorem issue_responses : (s.issue c).responses = s.responses := rfl

@[simp] theorem applyReset_straps : (applyReset s).straps = s.straps := rfl
@[simp] theorem applyReset_unit : (applyReset s).unit = unitCode s.straps.unitReset := rfl
@[simp] theorem applyReset_alarmActive : (applyReset s).alarmActive = false := rfl
@[simp] theorem applyReset_host : (applyReset s).host = s.host := rfl
@[simp] theorem applyReset_responses : (applyReset s).responses = s.responses := rfl

@[simp] theorem resetOf_straps (k : Config) : (State.resetOf k).straps = k := rfl
@[simp] theorem resetOf_unit (k : Config) : (State.resetOf k).unit = unitCode k.unitReset := rfl
@[simp] theorem resetOf_alarmActive (k : Config) : (State.resetOf k).alarmActive = false := rfl
@[simp] theorem resetOf_host (k : Config) : (State.resetOf k).host = [] := rfl
@[simp] theorem resetOf_responses (k : Config) : (State.resetOf k).responses = [] := rfl

/-- A state whose host issues a command is taken apart by `fetch` into the command and the state before. -/
@[simp] theorem fetch_issue : fetch (s.issue c) = .command c s := rfl

/-- Everything `fetch` can do. -/
theorem fetch_cases :
    (s.host = [] ∧ fetch s = .idle) ∨
    (∃ rest, s.host = .reset :: rest ∧ fetch s = .reset { s with host := rest }) ∨
    (∃ c rest, s.host = .command c :: rest ∧ fetch s = .command c { s with host := rest }) := by
  cases h : s.host with
  | nil => exact .inl ⟨rfl, by simp [fetch, h]⟩
  | cons e rest =>
    cases e with
    | reset => exact .inr (.inl ⟨rest, rfl, by simp [fetch, h]⟩)
    | command c => exact .inr (.inr ⟨c, rest, rfl, by simp [fetch, h]⟩)

end Sys2Proof.Laws
end

