-- ==== Sys2Proof/Laws/Ops.lean ====
section
/-! SUPPORT. For each shared operation, once, everything it can do. -/

namespace Sys2Proof.Laws

open Sys2Proof.Machine

/-- A completed command answers the state it wrote with the response added. -/
theorem complete_next {r : Response} {s t : State} (h : complete r s = .next t) : t = s.respond r := by
  cases h
  rfl

/-- A raised error answers the unchanged state with the error's response added (R172). -/
theorem raise_next {e : BlockError} {s t : State} (h : raise e s = .next t) :
    t = s.respond (errorResponse e) := by
  cases h
  rfl

@[simp] theorem errorStatus_ne_zero (e : BlockError) : statusCode (errorStatus e) ≠ 0 := by
  cases e <;> decide

/-- An error response carries no result port (R172). -/
@[simp] theorem errorResponse_produced (e : BlockError) : (errorResponse e).produced = [] := by
  cases e <;> rfl

/-- The unit enum's members (R69). -/
theorem isUnit_iff (b : Byte) : isUnit b = true ↔ b = 0x01 ∨ b = 0x02 := by
  simp [isUnit, unitCelsius, unitFahrenheit]

/-- A reset unit is a member of the enum (R9, R69). -/
theorem unitCode_isUnit (u : TempUnit) : isUnit (unitCode u) = true := by
  cases u <;> rfl

/-- Everything the receive checks can do (R121, R173). -/
theorem checkRx_cases (order : ByteOrder) (n : Half) (l : List Byte) :
    (n ≠ 8 ∧ checkRx order n l = .raised .frameLength) ∨
    (n = 8 ∧ l.length ≠ 8 ∧ checkRx order n l = .missized) ∨
    (∃ b : FrameBuffer, n = 8 ∧ l = b.toList ∧ b[0] ≠ 0x55 ∧ checkRx order n l = .raised .frameFlag) ∨
    (∃ b : FrameBuffer, n = 8 ∧ l = b.toList ∧ b[0] = 0x55 ∧
      checkRx order n l = .fields (readFields order b)) := by
  by_cases hn : n = 8
  · cases hb : rxBuffer l with
    | none => exact .inr (.inl ⟨hn, rxBuffer_eq_none.mp hb, by simp [checkRx, hn, hb]⟩)
    | some b =>
      have hl := rxBuffer_eq_some.mp hb
      have he : checkRx order n l =
          if memRead8 b 0 ≠ startFlag then .raised .frameFlag else .fields (readFields order b) := by
        simp [checkRx, hn, hb]
      by_cases h0 : b[0] = 0x55
      · exact .inr (.inr (.inr ⟨b, hn, hl, h0, he.trans (if_neg (not_not.mpr h0))⟩))
      · exact .inr (.inr (.inl ⟨b, hn, hl, h0, he.trans (if_pos h0)⟩))
  · exact .inl ⟨hn, if_pos hn⟩

/-- A well-formed receive operand is never missized. -/
theorem checkRx_ne_missized {order : ByteOrder} {n : Half} {l : List Byte} (h : rxSized n l = true) :
    checkRx order n l ≠ .missized := by
  rcases checkRx_cases order n l with ⟨_, e⟩ | ⟨hn, hl, _⟩ | ⟨_, _, _, _, e⟩ | ⟨_, _, _, _, e⟩
  · simp [e]
  · subst hn
    exact absurd (by simpa [rxSized] using h) hl
  · simp [e]
  · simp [e]

/-- Everything a meaning can do: the registers it writes and the one response it adds, or the refusal of a
missized receive operand (R28, R172, U5). -/
theorem exec_cases (i : Instr) (s : State) :
    (∃ r, exec i s = .next (s.respond r)) ∨
    (∃ r a, ((∃ w, i = .alarmUpd w) ∨ ∃ raw, i = .nodeCycle raw) ∧
      exec i s = .next ((s.writeAlarm a).respond r)) ∨
    (∃ r u, i = .setUnit u ∧ isUnit u = true ∧ exec i s = .next ((s.writeUnit u).respond r)) ∨
    (i.wellFormed = false ∧ exec i s = .refused .rxSizeMismatch) := by
  cases i with
  | cvtC raw => exact .inl ⟨_, rfl⟩
  | cvtFcenti raw => exact .inl ⟨_, rfl⟩
  | cvtF raw => exact .inl ⟨_, rfl⟩
  | wholeC raw => exact .inl ⟨_, rfl⟩
  | cvt raw => exact .inl ⟨_, rfl⟩
  | cmp whole thr => exact .inl ⟨_, rfl⟩
  | alarmUpd whole => exact .inr (.inl ⟨_, _, .inl ⟨_, rfl⟩, rfl⟩)
  | encode nodeId unit value alarmType alarmActive => exact .inl ⟨_, rfl⟩
  | decode n l =>
    rcases checkRx_cases s.straps.byteOrder n l with
      ⟨_, e⟩ | ⟨hn, hl, e⟩ | ⟨_, _, _, _, e⟩ | ⟨_, _, _, _, e⟩
    · exact .inl ⟨_, by simp [exec, execDecode, e]; rfl⟩
    · exact .inr (.inr (.inr ⟨by simp [Instr.wellFormed, rxSized, hn, hl], by simp [exec, execDecode, e]⟩))
    · exact .inl ⟨_, by simp [exec, execDecode, e]; rfl⟩
    · exact .inl ⟨_, by simp [exec, execDecode, e]; rfl⟩
  | split unit value => exact .inl ⟨_, rfl⟩
  | rxRender n l =>
    rcases checkRx_cases s.straps.byteOrder n l with
      ⟨_, e⟩ | ⟨hn, hl, e⟩ | ⟨_, _, _, _, e⟩ | ⟨_, _, _, _, e⟩
    · exact .inl ⟨_, by simp [exec, execRxRender, e]; rfl⟩
    · exact .inr (.inr (.inr ⟨by simp [Instr.wellFormed, rxSized, hn, hl], by simp [exec, execRxRender, e]⟩))
    · exact .inl ⟨_, by simp [exec, execRxRender, e]; rfl⟩
    · exact .inl ⟨_, by simp [exec, execRxRender, e]; rfl⟩
  | nodeCycle raw => exact .inr (.inl ⟨_, _, .inr ⟨_, rfl⟩, rfl⟩)
  | setUnit unit =>
    by_cases h : isUnit unit = true
    · exact .inr (.inr (.inl ⟨okResponse, unit, rfl, h, by simp [exec, execSetUnit, h, complete]⟩))
    · exact .inl ⟨errorResponse .badUnit, by simp [exec, execSetUnit, h, raise]⟩
  | status => exact .inl ⟨_, rfl⟩

end Sys2Proof.Laws
end

