-- ==== Sys2Proof/Laws/PerInstr.lean ====
section
/-! SUPPORT. Statements about every instruction as syntax, one lemma for each constructor. -/

namespace Sys2Proof.Laws.OpField

open Sys2Proof

/-- The record an instruction encodes to carries its operation's code, and that code selects its operation
(R61, R66). -/
def Statement (i : Instr) : Prop :=
  (encode i).op = i.op.code ∧ Op.ofCode (encode i).op = some i.op

theorem cvtC (raw : Half) : Statement (.cvtC raw) := ⟨rfl, rfl⟩
theorem cvtFcenti (raw : Half) : Statement (.cvtFcenti raw) := ⟨rfl, rfl⟩
theorem cvtF (raw : Half) : Statement (.cvtF raw) := ⟨rfl, rfl⟩
theorem wholeC (raw : Half) : Statement (.wholeC raw) := ⟨rfl, rfl⟩
theorem cvt (raw : Half) : Statement (.cvt raw) := ⟨rfl, rfl⟩
theorem cmp (whole thr : Half) : Statement (.cmp whole thr) := ⟨rfl, rfl⟩
theorem alarmUpd (whole : Half) : Statement (.alarmUpd whole) := ⟨rfl, rfl⟩
theorem encode (nodeId unit : Byte) (value : Half) (alarmType : Byte) (alarmActive : Bool) :
    Statement (.encode nodeId unit value alarmType alarmActive) := ⟨rfl, rfl⟩
theorem decode (rxLen : Half) (rxData : List Byte) : Statement (.decode rxLen rxData) := ⟨rfl, rfl⟩
theorem split (unit : Byte) (value : Half) : Statement (.split unit value) := ⟨rfl, rfl⟩
theorem rxRender (rxLen : Half) (rxData : List Byte) : Statement (.rxRender rxLen rxData) := ⟨rfl, rfl⟩
theorem nodeCycle (raw : Half) : Statement (.nodeCycle raw) := ⟨rfl, rfl⟩
theorem setUnit (unit : Byte) : Statement (.setUnit unit) := ⟨rfl, rfl⟩
theorem status : Statement .status := ⟨rfl, rfl⟩

end Sys2Proof.Laws.OpField
end

