-- ==== Sys2Proof/Machine/Text.lean ====
section
/-!
DEFINITION. The spec's textual syntax of commands and responses (30_encoding.md R74), with DIOT's function
names as aliases and the pseudo-operation CMPD (R75). Notation only (D22): no step reads it; the model's
tests transcribe the spec's vectors in it. What R74 leaves open is settled as log entry 17 says (DESIGN CHOICE).
-/

namespace Sys2Proof.Machine

/-- The pieces of a text between the separators `sep`. -/
def pieces (sep : Char) : List Char → List (List Char)
  | [] => [[]]
  | c :: cs =>
    if c = sep then [] :: pieces sep cs
    else
      match pieces sep cs with
      | [] => [[c]]
      | p :: ps => (c :: p) :: ps

/-- The text without the spaces at its two ends. -/
def trimSpaces (cs : List Char) : List Char :=
  ((cs.dropWhile (· == ' ')).reverse.dropWhile (· == ' ')).reverse

/-- The value of a digit in base 10 or 16. -/
def digitValue (base : Nat) (c : Char) : Option Nat :=
  let n := c.toNat
  let v :=
    if 48 ≤ n ∧ n ≤ 57 then some (n - 48)
    else if 65 ≤ n ∧ n ≤ 70 then some (n - 55)
    else if 97 ≤ n ∧ n ≤ 102 then some (n - 87)
    else none
  v.bind fun d => if d < base then some d else none

/-- A numeral's value, its digits so far giving `acc`. -/
def numeralFrom (base acc : Nat) : List Char → Option Nat
  | [] => some acc
  | c :: cs =>
    match digitValue base c with
    | none => none
    | some d => numeralFrom base (acc * base + d) cs

/-- A non-empty numeral. -/
def numeral (base : Nat) : List Char → Option Nat
  | [] => none
  | c :: cs => numeralFrom base 0 (c :: cs)

/-- "Integers are decimal, or hexadecimal with the prefix `0x`" (R74). -/
def unsignedText : List Char → Option Nat
  | '0' :: 'x' :: cs => numeral 16 cs
  | cs => numeral 10 cs

/-- "signed ports take a leading `-`" (R74). -/
def signedText : List Char → Option Int
  | '-' :: cs => (unsignedText cs).map fun n => -(n : Int)
  | cs => (unsignedText cs).map fun n => (n : Int)

/-- Two hexadecimal digits (R74). -/
def byteText : List Char → Option Byte
  | [a, b] => (numeral 16 [a, b]).map (BitVec.ofNat 8)
  | _ => none

/-- All the values, when every one is there. -/
def allSome {α : Type} : List (Option α) → Option (List α)
  | [] => some []
  | none :: _ => none
  | some a :: os => (allSome os).map (a :: ·)

/-- `[b0 b1 ...]`, offset 0 first (R74). -/
def bytesText : List Char → Option (List Byte)
  | '[' :: cs =>
    match cs.reverse with
    | ']' :: inner =>
      match trimSpaces inner.reverse with
      | [] => some []
      | bs => allSome ((pieces ' ' bs).map byteText)
    | _ => none
  | _ => none

/-! ### Reading a value into a port of its width -/

/-- A signed 16-bit value; a value outside the port is refused (U5). -/
def half? (cs : List Char) : Option Half :=
  (signedText cs).bind fun v => if -32768 ≤ v ∧ v ≤ 32767 then some (BitVec.ofInt 16 v) else none

/-- A signed 32-bit value. -/
def word? (cs : List Char) : Option Word :=
  (signedText cs).bind fun v =>
    if -2147483648 ≤ v ∧ v ≤ 2147483647 then some (BitVec.ofInt 32 v) else none

/-- An unsigned `w`-bit value. -/
def unsigned? (w : Nat) (cs : List Char) : Option (BitVec w) :=
  (unsignedText cs).bind fun n => if n < 2 ^ w then some (BitVec.ofNat w n) else none

/-- A one-bit value. -/
def bit? (cs : List Char) : Option Bool :=
  match unsignedText cs with
  | some 0 => some false
  | some 1 => some true
  | _ => none

/-- An 8-byte frame. -/
def frame? (cs : List Char) : Option FrameBuffer :=
  (bytesText cs).bind fun l =>
    if h : l.length = 8 then some (Vector.mk l.toArray (by simpa using h)) else none

/-- The value's entry in a table of names. -/
def named? {α : Type} (table : List (String × α)) (name : List Char) : Option α :=
  (table.find? fun e => e.1.toList == name).map (·.2)

/-- One `port=value` pair. -/
def pair? (cs : List Char) : Option (List Char × List Char) :=
  match pieces '=' cs with
  | [n, v] => some (trimSpaces n, trimSpaces v)
  | _ => none

/-- The pairs of a text, separated by commas. -/
def pairs? (cs : List Char) : Option (List (List Char × List Char)) :=
  match trimSpaces cs with
  | [] => some []
  | ts => allSome ((pieces ',' ts).map pair?)

/-! ### Commands -/

/-- The mnemonics (R66). -/
def mnemonics : List (String × Op) :=
  [("CVT_C", .cvtC), ("CVT_FCENTI", .cvtFcenti), ("CVT_F", .cvtF), ("WHOLE_C", .wholeC), ("CVT", .cvt),
   ("CMP", .cmp), ("ALARM_UPD", .alarmUpd), ("ENCODE", .encode), ("DECODE", .decode), ("SPLIT", .split),
   ("RX_RENDER", .rxRender), ("NODE_CYCLE", .nodeCycle), ("SET_UNIT", .setUnit), ("STATUS", .status)]

/-- DIOT's function names, accepted as aliases (R75). -/
def diotNames : List (String × Op) :=
  [("toCelsiusFixed", .cvtC), ("toFahrenheitCentiFromRaw", .cvtFcenti), ("toFahrenheitFixed", .cvtF),
   ("wholeDegreesC", .wholeC), ("evaluate", .cmp), ("encode", .encode), ("decode", .decode),
   ("onBytesReceived", .rxRender)]

/-- The names of the operand ports (R62); `rx` gives both `rx_data` and `rx_len` (R74). -/
def portNames : List (String × Port) :=
  [("raw", .raw), ("whole", .whole), ("thr", .thr), ("node_id", .nodeId), ("unit", .unit),
   ("value", .value), ("alarm_type", .alarmType), ("alarm_active", .alarmActive), ("rx", .rxData)]

/-- Write a value's text into a port of a command record. -/
def setPort (p : Port) (v : List Char) (c : Command) : Option Command :=
  match p with
  | .raw => (half? v).map fun x => { c with raw := x }
  | .whole => (half? v).map fun x => { c with whole := x }
  | .thr => (half? v).map fun x => { c with thr := x }
  | .nodeId => (unsigned? 8 v).map fun x => { c with nodeId := x }
  | .unit => (unsigned? 8 v).map fun x => { c with unit := x }
  | .value => (half? v).map fun x => { c with value := x }
  | .alarmType => (unsigned? 8 v).map fun x => { c with alarmType := x }
  | .alarmActive => (bit? v).map fun x => { c with alarmActive := x }
  | .rxLen => none
  | .rxData =>
    (bytesText v).bind fun l =>
      if l.length < 65536 then some { c with rxLen := BitVec.ofNat 16 l.length, rxData := l } else none

/-- Write each pair into its port. -/
def setPorts (c : Command) : List (List Char × List Char) → Option Command
  | [] => some c
  | (n, v) :: rest =>
    match named? portNames n with
    | none => none
    | some p =>
      match setPort p v c with
      | none => none
      | some c' => setPorts c' rest

/-- The pairs name exactly the ports wanted, in any order (R74). That each must be named, and once only, is the
model's choice (log entry 17, DESIGN CHOICE). -/
def namesExactly (wanted : List Port) (pairs : List (List Char × List Char)) : Bool :=
  pairs.length == wanted.length &&
    wanted.all fun p => pairs.any fun q => named? portNames q.1 == some p

/-- The command a line of text stands for (R74, R75). -/
def assembleChars (cs : List Char) : Option Command :=
  let cs := trimSpaces cs
  let name := cs.takeWhile (· != ' ')
  match pairs? (cs.dropWhile (· != ' ')) with
  | none => none
  | some pairs =>
    if name = "CMPD".toList then
      if namesExactly [.whole] pairs then setPorts { op := Op.cmp.code, thr := 23 } pairs else none
    else
      match named? (mnemonics ++ diotNames) name with
      | none => none
      | some op =>
        if namesExactly (op.format.ports.filter (· != .rxLen)) pairs then setPorts { op := op.code } pairs
        else none

/-- The command a string stands for. -/
def assemble (text : String) : Option Command :=
  assembleChars text.toList

/-! ### Responses -/

/-- "A status is written by its name" (R64, R74). -/
def statusNames : List (String × Status) :=
  [("OK", .ok), ("FRAME_LENGTH_ERROR", .frameLengthError), ("FRAME_FLAG_ERROR", .frameFlagError),
   ("ILLEGAL_OP", .illegalOp), ("BAD_UNIT", .badUnit)]

/-- The names of the result ports (R63). -/
def resultNames : List (String × ResultPort) :=
  [("res", .res), ("value16", .value16), ("ovf", .ovf), ("active", .active), ("rise", .rise),
   ("fall", .fall), ("frame", .frame), ("f_start_flag", .fStartFlag), ("f_frame_id", .fFrameId),
   ("f_node_id", .fNodeId), ("f_unit", .fUnit), ("f_value", .fValue), ("f_alarm_type", .fAlarmType),
   ("f_alarm_status", .fAlarmStatus), ("whole_part", .wholePart), ("frac_part", .fracPart),
   ("unit_letter", .unitLetter), ("s_unit", .sUnit), ("s_alarm_active", .sAlarmActive),
   ("s_node_id", .sNodeId), ("s_threshold", .sThreshold), ("s_byte_order", .sByteOrder)]

/-- Write a value's text into a port of a response record. -/
def setResult (p : ResultPort) (v : List Char) (r : Response) : Option Response :=
  match p with
  | .res => (word? v).map fun x => { r with res := some x }
  | .value16 => (half? v).map fun x => { r with value16 := some x }
  | .ovf => (bit? v).map fun x => { r with ovf := some x }
  | .active => (bit? v).map fun x => { r with active := some x }
  | .rise => (bit? v).map fun x => { r with rise := some x }
  | .fall => (bit? v).map fun x => { r with fall := some x }
  | .frame => (frame? v).map fun x => { r with frame := some x }
  | .fStartFlag => (unsigned? 8 v).map fun x => { r with fStartFlag := some x }
  | .fFrameId => (unsigned? 8 v).map fun x => { r with fFrameId := some x }
  | .fNodeId => (unsigned? 8 v).map fun x => { r with fNodeId := some x }
  | .fUnit => (unsigned? 8 v).map fun x => { r with fUnit := some x }
  | .fValue => (half? v).map fun x => { r with fValue := some x }
  | .fAlarmType => (unsigned? 8 v).map fun x => { r with fAlarmType := some x }
  | .fAlarmStatus => (unsigned? 8 v).map fun x => { r with fAlarmStatus := some x }
  | .wholePart => (half? v).map fun x => { r with wholePart := some x }
  | .fracPart => (unsigned? 14 v).map fun x => { r with fracPart := some x }
  | .unitLetter => (unsigned? 8 v).map fun x => { r with unitLetter := some x }
  | .sUnit => (unsigned? 8 v).map fun x => { r with sUnit := some x }
  | .sAlarmActive => (bit? v).map fun x => { r with sAlarmActive := some x }
  | .sNodeId => (unsigned? 8 v).map fun x => { r with sNodeId := some x }
  | .sThreshold => (half? v).map fun x => { r with sThreshold := some x }
  | .sByteOrder => (bit? v).map fun x => { r with sByteOrder := some x }

/-- Write each pair into its result port, first pair first. `responseChars` passes no name twice. -/
def setResults (r : Response) : List (List Char × List Char) → Option Response
  | [] => some r
  | (n, v) :: rest =>
    match named? resultNames n with
    | none => none
    | some p =>
      match setResult p v r with
      | none => none
      | some r' => setResults r' rest

/-- The response a text stands for: one `status` pair and pairs of result ports, in any order ("The order of
the pairs is free", R74; D22 shows the status first). That a name stands at most once, and that any result
ports may stand beside any status, is the model's choice (log entry 17, DESIGN CHOICE). -/
def responseChars (cs : List Char) : Option Response :=
  match pairs? cs with
  | none => none
  | some pairs =>
    match pairs.filter fun q => q.1 == "status".toList with
    | [(_, v)] =>
      let results := pairs.filter fun q => q.1 != "status".toList
      match named? statusNames v with
      | none => none
      | some st =>
        if (results.map (·.1)).Nodup then setResults { status := statusCode st } results else none
    | _ => none

/-- A line `command -> response` (R74). -/
def vectorLine (text : String) : Option (Command × Response) :=
  match pieces '>' text.toList with
  | [l, r] =>
    match l.reverse with
    | '-' :: lhs =>
      match assembleChars lhs.reverse, responseChars r with
      | some c, some rsp => some (c, rsp)
      | _, _ => none
    | _ => none
  | _ => none

end Sys2Proof.Machine
end

