-- ==== Sys2Proof/Tests/Slice0.lean ====
section
/-!
SUPPORT. The model's own tests. Vectors are copied from spec/95_test_vectors.md and from the corner cases of
the rules, in the spec's own notation (30_encoding.md R74), and read by `vectorLine`; each theorem names where
its vector stands. The witnesses at the end show, for every statement with hypotheses, concrete values that
meet them.
-/

namespace Sys2Proof.Tests

open Sys2Proof.Machine

/-! ### Helpers -/

/-- An instance as in 95_test_vectors.md: NODE_ID 0xAA, THRESHOLD 23, in the given registers. -/
def inst (order : ByteOrder) (unit : Byte) (alarm : Bool) : State :=
  { State.resetOf { byteOrder := order, nodeId := 0xAA, unitReset := .celsius } with
    unit := unit, alarmActive := alarm }

/-- The vector holds: one step from `s` gives the response written after the arrow and these registers, and
nothing else changes. -/
def vector (s : State) (line : String) (unit : Byte) (alarm : Bool) : Bool :=
  match vectorLine line with
  | none => false
  | some (c, r) =>
    match step (s.issue c) with
    | .next t => t == { s with unit := unit, alarmActive := alarm, responses := r :: s.responses }
    | .fault _ => false
    | .refused _ => false

/-- The step answers a next state. -/
def goesOn (o : Answer) : Bool :=
  match o with
  | .next _ => true
  | .fault _ => false
  | .refused _ => false

/-- The response a step adds. -/
def answered (o : Answer) : Option Response :=
  match o with
  | .next t => t.responses.head?
  | .fault _ => none
  | .refused _ => none

/-- A text as ASCII bytes. -/
def ascii (text : String) : List Byte :=
  text.toList.map fun c => BitVec.ofNat 8 c.toNat

/-- The CSV record of the response to a command line. -/
def csvOf (s : State) (line : String) : Option (List Byte) :=
  (assemble line).bind fun c => (answered (step (s.issue c))).bind csvRecord

/-! ### The notation: pairs in any order (R74), one of each name (log entry 17) -/

theorem test_response_pairs_in_any_order :
    responseChars "res=380, status=OK".toList = some { status := 0x0, res := some 380 } := by decide
theorem test_response_pair_twice_is_refused :
    responseChars "status=OK, res=380, res=381".toList = none := by decide

/-! ### Well-formedness: an ill-formed term for each check, refused -/

theorem test_decode_missized_is_ill_formed : (Instr.decode 8 [0x55]).wellFormed = false := by decide
theorem test_rx_render_missized_is_ill_formed : (Instr.rxRender 0 [0x55]).wellFormed = false := by decide
theorem test_missized_record_is_rejected_by_name :
    decode { op := 0b1001, rxLen := 2, rxData := [0x55] } = .rxSizeMismatch := by decide

/-! ### Decoding: the codes of R66 written out in binary -/

theorem test_decode_cvtC : decode { op := 0b0001#4, raw := 95 } = .instr (.cvtC 95) := by decide
theorem test_decode_cvtFcenti : decode { op := 0b0010#4, raw := 95 } = .instr (.cvtFcenti 95) := by decide
theorem test_decode_cvtF : decode { op := 0b0011#4, raw := 95 } = .instr (.cvtF 95) := by decide
theorem test_decode_wholeC : decode { op := 0b0100#4, raw := 95 } = .instr (.wholeC 95) := by decide
theorem test_decode_cvt : decode { op := 0b0101#4, raw := 95 } = .instr (.cvt 95) := by decide
theorem test_decode_cmp : decode { op := 0b0110#4, whole := 24, thr := 23 } = .instr (.cmp 24 23) := by decide
theorem test_decode_alarmUpd : decode { op := 0b0111#4, whole := 24, thr := 9 } = .instr (.alarmUpd 24) := by
  decide
theorem test_decode_encode :
    decode { op := 0b1000#4, nodeId := 1, unit := 2, value := 3, alarmType := 4, alarmActive := true } =
      .instr (.encode 1 2 3 4 true) := by decide
theorem test_decode_decode :
    decode { op := 0b1001#4, rxLen := 2, rxData := [0x55, 0x01] } = .instr (.decode 2 [0x55, 0x01]) := by decide
theorem test_decode_split : decode { op := 0b1010#4, unit := 2, value := 380 } = .instr (.split 2 380) := by
  decide
theorem test_decode_rxRender :
    decode { op := 0b1011#4, rxLen := 1, rxData := [0x55] } = .instr (.rxRender 1 [0x55]) := by decide
theorem test_decode_nodeCycle : decode { op := 0b1100#4, raw := 96 } = .instr (.nodeCycle 96) := by decide
theorem test_decode_setUnit : decode { op := 0b1101#4, unit := 2 } = .instr (.setUnit 2) := by decide
theorem test_decode_status : decode { op := 0b1110#4, unit := 2 } = .instr .status := by decide
theorem test_decode_zero_is_illegal : decode { op := 0b0000#4, raw := 95 } = .illegalOp := by decide
theorem test_decode_ones_is_illegal : decode { op := 0b1111#4, raw := 95 } = .illegalOp := by decide

/-- Every row of the table runs as the first command after reset, its parameters left open. -/
theorem test_every_row_runs_from_reset :
    ([1, 2, 3, 4, 5, 6, 7, 8, 9, 10, 11, 12, 13, 14].all fun w =>
      goesOn (step (State.reset.withFetchWord 8 w)) && (decodeTableWord 8 w).isSome) = true := by decide

/-! ### Converter (95_test_vectors.md 2.1) -/

theorem test_cvtC_value : vector (inst .le 1 false) "CVT_C raw=95 -> status=OK, res=380" 1 false = true := by
  decide
theorem test_cvtC_smallest :
    vector (inst .le 1 false) "CVT_C raw=-32768 -> status=OK, res=-131072" 1 false = true := by decide
theorem test_cvtFcenti_negative :
    vector (inst .le 1 false) "CVT_FCENTI raw=-72 -> status=OK, res=-40" 1 false = true := by decide
theorem test_cvtFcenti_largest :
    vector (inst .le 2 true) "CVT_FCENTI raw=32767 -> status=OK, res=1477715" 2 true = true := by decide
theorem test_cvtF_truncates_toward_zero :
    vector (inst .le 1 false) "CVT_F raw=-72 -> status=OK, res=-6" 1 false = true := by decide
theorem test_cvtF_is_not_narrowed :
    vector (inst .le 1 false) "CVT_F raw=-4623 -> status=OK, res=-32773" 1 false = true := by decide
theorem test_wholeC_is_no_shift :
    vector (inst .le 1 false) "WHOLE_C raw=-3 -> status=OK, res=0" 1 false = true := by decide
theorem test_wholeC_negative :
    vector (inst .le 1 false) "WHOLE_C raw=-5 -> status=OK, res=-1" 1 false = true := by decide
theorem test_cvt_celsius_overflows :
    vector (inst .le 1 true) "CVT raw=8192 -> status=OK, value16=-32768, ovf=1" 1 true = true := by decide
theorem test_cvt_fahrenheit_last_fit :
    vector (inst .le 2 false) "CVT raw=-4622 -> status=OK, value16=-32766, ovf=0" 2 false = true := by decide

/-! ### Alarm (2.2) -/

theorem test_cmp_is_signed_and_wide :
    vector (inst .le 1 true) "CMP whole=-32768, thr=32767 -> status=OK, active=0" 1 true = true := by decide
theorem test_cmp_is_strict :
    vector (inst .le 1 false) "CMPD whole=23 -> status=OK, active=0" 1 false = true := by decide
theorem test_alarmUpd_rises :
    vector (inst .le 2 false) "ALARM_UPD whole=24 -> status=OK, active=1, rise=1, fall=0" 2 true = true := by
  decide
theorem test_alarmUpd_falls :
    vector (inst .le 1 true) "ALARM_UPD whole=23 -> status=OK, active=0, rise=0, fall=1" 1 false = true := by
  decide

/-! ### Codec (2.3) -/

theorem test_encode_le :
    vector (inst .le 2 true)
      "ENCODE node_id=0x01, unit=0x01, value=-380, alarm_type=0x01, alarm_active=0 -> status=OK, frame=[55 01 01 01 84 FE 01 00]"
      2 true = true := by decide +kernel
theorem test_encode_be_validates_nothing :
    vector (inst .be 1 false)
      "ENCODE alarm_active=1, alarm_type=0x99, value=4660, unit=0x07, node_id=0x12 -> status=OK, frame=[55 01 12 07 12 34 99 01]"
      1 false = true := by decide +kernel
theorem test_decode_be_checks_nothing_else :
    vector (inst .be 1 true)
      "DECODE rx=[55 FF 00 09 FF 7F 07 C8] -> status=OK, f_start_flag=0x55, f_frame_id=255, f_node_id=0, f_unit=9, f_value=-129, f_alarm_type=7, f_alarm_status=200"
      1 true = true := by decide +kernel
theorem test_decode_length_before_flag :
    vector (inst .le 1 true) "DECODE rx=[54 01 AA 01 7C 01 01] -> status=FRAME_LENGTH_ERROR" 1 true = true := by
  decide

/-! ### Render (2.4) -/

theorem test_split_truncates :
    vector (inst .le 1 false) "SPLIT unit=0xFF, value=-17 -> status=OK, whole_part=-1, frac_part=625, unit_letter=0x46"
      1 false = true := by decide
theorem test_split_loses_sign :
    vector (inst .le 1 false) "SPLIT unit=0x01, value=-5 -> status=OK, whole_part=0, frac_part=3125, unit_letter=0x43"
      1 false = true := by decide
theorem test_rxRender_le :
    vector (inst .le 1 false)
      "RX_RENDER rx=[55 01 AA 02 AC 04 01 01] -> status=OK, f_start_flag=0x55, f_frame_id=1, f_node_id=170, f_unit=2, f_value=1196, f_alarm_type=1, f_alarm_status=1, whole_part=74, frac_part=7500, unit_letter=0x46"
      1 false = true := by decide +kernel
theorem test_rxRender_flag_error :
    vector (inst .le 1 true) "RX_RENDER rx=[54 01 AA 01 7C 01 01 01] -> status=FRAME_FLAG_ERROR" 1 true = true := by
  decide

/-- 2.4, the record of a negative value. -/
theorem test_csv_negative :
    csvOf (inst .le 1 false) "RX_RENDER rx=[55 01 01 01 84 FE 01 00]" = some (ascii "1;C;-23.7500;1;0") := by
  decide
/-- 2.4, silent corruption: padding, and bytes printed as found. -/
theorem test_csv_pads_the_fraction :
    csvOf (inst .le 1 false) "onBytesReceived rx=[55 FF 00 09 FF FF 07 C8]" = some (ascii "0;F;0.0625;7;200") := by
  decide

/-! ### Node cycle (2.5) -/

theorem test_nodeCycle_nc4 :
    vector (inst .le 2 false)
      "NODE_CYCLE raw=96 -> status=OK, value16=1203, ovf=0, active=1, rise=1, fall=0, frame=[55 01 AA 02 B3 04 01 01]"
      2 true = true := by decide
theorem test_nodeCycle_nc13_be :
    vector (inst .be 1 true)
      "NODE_CYCLE raw=-8193 -> status=OK, value16=32764, ovf=1, active=0, rise=0, fall=1, frame=[55 01 AA 01 7F FC 01 00]"
      1 false = true := by decide

/-! ### System and errors (2.6) -/

theorem test_setUnit_leaves_the_alarm :
    vector (inst .le 2 true) "SET_UNIT unit=0x01 -> status=OK" 1 true = true := by decide
theorem test_setUnit_refuses_a_non_member :
    vector (inst .le 1 true) "SET_UNIT unit=0x03 -> status=BAD_UNIT" 1 true = true := by decide
theorem test_status_be :
    vector (inst .be 2 true)
      "STATUS -> status=OK, s_unit=0x02, s_alarm_active=1, s_node_id=0xAA, s_threshold=23, s_byte_order=1"
      2 true = true := by decide
theorem test_illegal_op_answers :
    (answered (step ((inst .le 2 true).issue { op := 0xF, unit := 1 }))) = some { status := 0x3 } := by decide
/-- R190: a reset clears the alarm and reports nothing. -/
theorem test_reset_event :
    (match step { inst .le 2 true with host := [.reset] } with
      | .next t => t == inst .le 1 false
      | .fault _ => false
      | .refused _ => false) = true := by decide
/-- U5: a value that does not fit its port is no command. -/
theorem test_text_refuses_a_wide_value : assemble "CVT_C raw=40000" = none := by decide
/-- R73: a port outside the format is not part of the command's text. -/
theorem test_text_refuses_a_foreign_port : assemble "STATUS unit=1" = none := by decide

/-! ### Witnesses: the hypotheses of each statement can be met -/

/-- A fixed good frame. -/
def goodFrame : FrameBuffer := #v[0x55, 0x01, 0xAA, 0x01, 0x7C, 0x01, 0x01, 0x01]

/-- A fixed badly flagged frame. -/
def badFrame : FrameBuffer := #v[0x54, 0x01, 0xAA, 0x01, 0x7C, 0x01, 0x01, 0x01]

/-- The same instance with the largest and the smallest threshold of a sign. -/
def withThreshold (t : Half) : State :=
  { inst .le 1 false with straps := { byteOrder := .le, nodeId := 0xAA, threshold := t, unitReset := .celsius } }

theorem witness_ResetEventSetsOnlyTheTwoRegisters :
    { inst .le 2 true with host := [.reset] }.host = .reset :: [] := by decide
theorem witness_StepRunsTheDecodedInstruction :
    ((inst .le 1 false).issue { op := 0x1, raw := 95 }).host = .command { op := 0x1, raw := 95 } :: [] ∧
      decode { op := 0x1, raw := 95 } = .instr (.cvtC 95) := by decide
theorem witness_DecodeAndEncodeAgree_encoded : (Instr.decode 1 [0x55]).wellFormed = true := by decide
theorem witness_DecodeAndEncodeAgree_decoded :
    decode { op := 0x9, raw := 7, rxLen := 1, rxData := [0x55] } = .instr (.decode 1 [0x55]) ∧
      Port.rxLen ∈ (Instr.decode 1 [0x55]).op.format.ports := by decide
theorem witness_UnlistedPortsAreIgnored :
    Op.ofCode (0x1 : BitVec 4) = some .cvtC ∧
      ∀ p ∈ Op.cvtC.format.ports, p.agree { op := 0x1, raw := 95 } { op := 0x1, raw := 95, unit := 9 } :=
  ⟨rfl, by simp [Op.format, Format.ports, Port.agree]⟩
theorem witness_OvfIsZeroExactlyInTheFitRange_celsius :
    (inst .le 1 false).unitLegal ∧ (inst .le 1 false).unit = 0x01 := ⟨.inl rfl, rfl⟩
theorem witness_OvfIsZeroExactlyInTheFitRange_fahrenheit :
    (inst .le 2 false).unitLegal ∧ (inst .le 2 false).unit = 0x02 := ⟨.inr rfl, rfl⟩
theorem witness_ValueIsExactInsideTheEnvelope :
    Instr.cvt 8191 = .cvt 8191 ∧
      (answered (exec (.cvt 8191) (inst .le 1 false))).map Response.inEnvelope = some true := by decide
theorem witness_FahrenheitTruncation_at_its_signs :
    0 ≤ toFahrenheitCenti (-71) ∧ toFahrenheitCenti (-72) < 0 := by
  norm_num [toFahrenheitCenti]
theorem witness_TruncationIsNotAnArithmeticShift : (-1 : Int) < 0 ∧ ¬ (4 : Int) ∣ -1 ∧ ¬ (16 : Int) ∣ -1 := by
  decide
theorem witness_Wrap16IsTheUniqueCongruentValue :
    -32768 ≤ (-32768 : Int) ∧ (-32768 : Int) ≤ 32767 ∧ (65536 : Int) ∣ 32768 - -32768 := by decide
theorem witness_AlarmThresholdInRawTicks_zero : 0 ≤ (withThreshold 0).straps.threshold.toInt := by decide
theorem witness_AlarmThresholdInRawTicks_minus_one : (withThreshold (-1)).straps.threshold.toInt ≤ -1 := by
  decide
theorem witness_AlarmDoesNotReadTheUnit : ∃ raw, Instr.nodeCycle 96 = .nodeCycle raw := ⟨96, rfl⟩
theorem witness_receive_record_is_sized : goodFrame.toList.length = (8 : Half).toNat := by decide
theorem witness_receive_wrong_length : (9 : Half) ≠ 8 ∧ (7 : Half) ≠ 8 := by decide
theorem witness_receive_bad_flag : badFrame[0] ≠ 0x55 := by decide
theorem witness_receive_good_flag : goodFrame[0] = 0x55 := by decide
theorem witness_FrameRoundTrip_same_order :
    (inst .be 1 false).straps.byteOrder = (inst .be 2 true).straps.byteOrder := by decide
theorem witness_ByteOrderMismatchSwapsTheValue :
    (inst .le 1 false).straps.byteOrder ≠ (inst .be 1 false).straps.byteOrder := by decide
theorem witness_BufferReadAfterWrite : (7 : Fin 8).val ≠ (5 : Fin 7).val ∧ (7 : Fin 8).val ≠ (5 : Fin 7).val + 1 := by
  decide
theorem witness_SplitLosesTheSignOfSmallValues_small : -16 < (-15 : Half).toInt ∧ (-15 : Half).toInt < 0 := by
  decide
theorem witness_SplitLosesTheSignOfSmallValues_large : (-16 : Half).toInt ≤ -16 := by decide
theorem witness_DecimalNumeralsAreExact : (10 ∈ [10]) ∧ decimal 10 = [0x31, 0x30] ∧ decimal 0 = [0x30] := by
  decide
theorem witness_OnlyRenderedFramesYieldACsvRecord :
    (answered (exec (.rxRender 8 goodFrame.toList) (inst .le 1 false))).map
      (fun r => r.fNodeId.isSome && r.unitLetter.isSome && r.wholePart.isSome && r.fracPart.isSome &&
        r.fAlarmType.isSome && r.fAlarmStatus.isSome) = some true := by decide
theorem witness_NodeCycleProducesValidFrames : (inst .le 2 false).unitLegal := .inr rfl
theorem witness_NodeReadingArrivesAtTheCollector :
    (inst .le 1 false).straps.byteOrder = (inst .le 2 true).straps.byteOrder ∧ (inst .le 1 false).unit = 0x01 ∧
      ((answered (exec (.nodeCycle 95) (inst .le 1 false))).bind Response.ovf) = some false := by decide
theorem witness_EachCommandEndsWithTheStatusOfItsFirstError :
    expressible { op := 0x9, rxLen := 1, rxData := [0x54] } = true := by decide
theorem witness_ErrorsChangeNothingAndProduceNothing :
    answered (step ((inst .le 2 true).issue { op := 0xD, unit := 7 })) = some { status := 0x4 } := by decide
theorem witness_ResponsesCarryExactlyTheirPorts :
    answered (exec (.cmp 24 23) (inst .le 1 false)) = some { status := 0x0, active := some true } ∧
      answered (exec (.setUnit 0) (inst .le 1 false)) = some { status := 0x4 } := by decide
theorem witness_OnlyTheListedOperationsWriteRegisters :
    ∃ t, exec (.setUnit 2) (inst .le 1 false) = .next t ∧ t.unit ≠ (inst .le 1 false).unit :=
  ⟨_, rfl, by decide⟩
theorem witness_OnlyTheListedOperationsWriteRegisters_alarm :
    ∃ t, exec (.alarmUpd 24) (inst .le 1 false) = .next t ∧ t.alarmActive ≠ (inst .le 1 false).alarmActive :=
  ⟨_, rfl, by decide⟩
theorem witness_ResponsesDependOnlyOnTheListedReads :
    (opReads (Instr.cvt 95).op).agree (inst .le 1 false) (inst .be 1 true) ∧
      goesOn (exec (.cvt 95) (inst .le 1 false)) = true ∧ goesOn (exec (.cvt 95) (inst .be 1 true)) = true :=
  ⟨by simp [opReads, Instr.op, Access.agree, inst], rfl, rfl⟩
theorem witness_ReadsSeeTheLatestWrite : (0x02 : Byte) = 0x01 ∨ (0x02 : Byte) = 0x02 := by decide
theorem witness_NoHiddenState :
    (inst .le 1 false).block = ((inst .le 1 false).respond { status := 0x3 }).block ∧
      goesOn (step ((inst .le 1 false).issue { op := 0x5, raw := 95 })) = true := by decide
theorem witness_StepKeepsTheInvariant :
    ((inst .le 1 false).issue { op := 0xC, raw := 96 }).Inv ∧
      goesOn (step ((inst .le 1 false).issue { op := 0xC, raw := 96 })) = true :=
  ⟨⟨.inl rfl, by simp [inst, State.issue, State.resetOf]⟩, by decide⟩
theorem witness_UnitIsLegalInEveryRun :
    goesOn (Sys2Proof.core.run 2 { State.resetOf { byteOrder := .le, nodeId := 1, unitReset := .fahrenheit } with
      host := [.command { op := 0xD, unit := 1 }, .reset] }) = true := by decide
theorem witness_EveryCommandIsAnswered :
    { inst .le 1 false with host := [.command { op := 0xE }, .reset] }.hostExpressible = true ∧
      2 ≤ { inst .le 1 false with host := [.command { op := 0xE }, .reset] }.host.length := by decide

end Sys2Proof.Tests
end

/-! The rules of 00_scope.md: the integer arithmetic (R12, R15), the step (R5), and the run of a host's script. -/

namespace Sys2Proof.Proofs.Scope

open Sys2Proof.Machine Sys2Proof.Laws

/-! ### Truncation and wrapping -/

/-- Off the multiples, truncating a negative dividend is one above the floor, and the floor is what the arithmetic
shift computes (R12, R193). -/
theorem tdiv_two_pow_of_neg {x : Int} {k : Nat} (hx : x < 0) (hd : ¬ (2 : Int) ^ k ∣ x) :
    tdiv x (2 ^ k) = x >>> k + 1 := by
  have hpos : (0 : Int) < 2 ^ k := by positivity
  calc tdiv x (2 ^ k)
      = -(-x / 2 ^ k) := tdiv_of_neg hx
    _ = x / 2 ^ k + 1 := by rw [Int.neg_ediv, if_neg hd, Int.sign_eq_one_of_pos hpos]; ring
    _ = x >>> k + 1 := by rw [Int.shiftRight_eq_div_pow]; norm_cast

/-- Settles O20: 4 and 16 are the powers of two 2 and 4. -/
theorem truncationIsNotAnArithmeticShift : Obligations.TruncationIsNotAnArithmeticShift := by
  intro x hx
  exact ⟨tdiv_two_pow_of_neg (k := 2) hx, tdiv_two_pow_of_neg (k := 4) hx⟩

/-- `wrap16` keeps the residue modulo 65536 (R15). -/
theorem dvd_sub_wrap16 (v : Int) : (65536 : Int) ∣ v - (wrap16 v).toInt := by
  rw [wrap16_toInt]
  exact Int.dvd_self_sub_bmod

/-- Settles O21: two values congruent to `v` differ by a multiple of 65536, and within a range of 65536 values
only 0 is one. -/
theorem wrap16IsTheUniqueCongruentValue : Obligations.Wrap16IsTheUniqueCongruentValue := by
  intro v
  have hrange : -32768 ≤ (wrap16 v).toInt ∧ (wrap16 v).toInt ≤ 32767 := signed16_bounds (wrap16 v)
  have hcong := dvd_sub_wrap16 v
  refine ⟨⟨hrange.1, hrange.2, hcong⟩, fun w hlow hhigh hw => ?_⟩
  have hdiff : (65536 : Int) ∣ w - (wrap16 v).toInt := by
    simpa using Int.dvd_sub hcong hw
  omega

/-! ### The step, by the host's next event -/

section Step

variable {s : State} {c : Command} {i : Instr} {rest : List HostEvent}

theorem step_of_host_nil (h : s.host = []) : step s = .fault .noCommand := by
  simp [step, fetch, h]

theorem step_of_host_reset (h : s.host = .reset :: rest) :
    step s = .next (applyReset { s with host := rest }) := by
  simp [step, fetch, h]

theorem step_of_host_command (h : s.host = .command c :: rest) :
    step s = runCommand c { s with host := rest } := by
  simp [step, fetch, h]

theorem runCommand_of_instr (h : decode c = .instr i) : runCommand c s = exec i s := by
  simp [runCommand, h]

theorem runCommand_of_illegalOp (h : decode c = .illegalOp) : runCommand c s = raise .illegalOp s := by
  simp [runCommand, h]

theorem runCommand_of_rxSizeMismatch (h : decode c = .rxSizeMismatch) :
    runCommand c s = .refused .rxSizeMismatch := by
  simp [runCommand, h]

/-- Settles O3: the host's next event is the command, and the decoder reads the instruction from it. -/
theorem stepRunsTheDecodedInstruction : Obligations.StepRunsTheDecodedInstruction := by
  intro s c rest i hhost hdecode
  exact (step_of_host_command hhost).trans (runCommand_of_instr hdecode)

/-- No meaning faults. -/
theorem exec_ne_fault (i : Instr) (s : State) (f : Fault) : exec i s ≠ .fault f := by
  rcases exec_cases i s with ⟨_, e⟩ | ⟨_, _, _, e⟩ | ⟨_, _, _, _, e⟩ | ⟨_, e⟩ <;> simp [e]

/-- No command record makes the block fault, an illegal one included (R172). -/
theorem runCommand_ne_fault (c : Command) (s : State) (f : Fault) : runCommand c s ≠ .fault f := by
  cases h : decode c with
  | instr i => rw [runCommand_of_instr h]; exact exec_ne_fault i s f
  | illegalOp => rw [runCommand_of_illegalOp h]; simp [raise]
  | rxSizeMismatch => rw [runCommand_of_rxSizeMismatch h]; simp

/-- Settles O6: an event left in the script, reset or command, never ends in a fault. -/
theorem noCommandNoStep : Obligations.NoCommandNoStep := by
  intro s
  refine ⟨fun hfault => ?_, step_of_host_nil⟩
  match hhost : s.host with
  | [] => rfl
  | .reset :: rest =>
    rw [step_of_host_reset hhost] at hfault
    cases hfault
  | .command c :: rest =>
    rw [step_of_host_command hhost] at hfault
    exact absurd hfault (runCommand_ne_fault c _ _)

end Step

/-! ### What a command the ports can hold does -/

/-- The decoder reads only well-formed instructions. -/
theorem wellFormed_of_decode {c : Command} {i : Instr} (h : decode c = .instr i) : i.wellFormed = true := by
  unfold decode at h
  split at h
  · cases h
  · split at h
    next hwf => cases h; exact hwf
    next => cases h

/-- The operands an operation reads from an expressible record are well-formed (R62, U5). -/
theorem operands_wellFormed {c : Command} (h : expressible c = true) (op : Op) :
    (op.operands c).wellFormed = true := by
  cases op with
  | decode => exact h
  | rxRender => exact h
  | _ => rfl

/-- An expressible record is read as an instruction or has an illegal code. -/
theorem decode_ne_rxSizeMismatch {c : Command} (h : expressible c = true) : decode c ≠ .rxSizeMismatch := by
  unfold decode
  split
  · simp
  · simp [operands_wellFormed h]

/-- `t` is `s` after the host's next events `events` have been carried out: they are taken from the script, the
parameters stay, and one response is added for each command (R5, R48). -/
structure CarriedOut (events : List HostEvent) (s t : State) : Prop where
  host : s.host = events ++ t.host
  straps : t.straps = s.straps
  responses : ∃ new, t.responses = new ++ s.responses ∧ new.length = commandCount events

theorem commandCount_append (l l' : List HostEvent) :
    commandCount (l ++ l') = commandCount l + commandCount l' := by
  simp [commandCount]

theorem CarriedOut.refl (s : State) : CarriedOut [] s s :=
  ⟨rfl, rfl, [], rfl, rfl⟩

theorem CarriedOut.trans {l l' : List HostEvent} {s t u : State} (h : CarriedOut l s t)
    (h' : CarriedOut l' t u) : CarriedOut (l ++ l') s u := by
  obtain ⟨new, hnew, hlen⟩ := h.responses
  obtain ⟨new', hnew', hlen'⟩ := h'.responses
  refine ⟨?_, h'.straps.trans h.straps, new' ++ new, ?_, ?_⟩
  · rw [h.host, h'.host, List.append_assoc]
  · rw [hnew', hnew, List.append_assoc]
  · rw [List.length_append, hlen, hlen', commandCount_append, Nat.add_comm]

/-- A well-formed instruction is answered, with its one response added and everything of the state that is no
register left alone. -/
theorem exec_answers {i : Instr} (h : i.wellFormed = true) (s : State) :
    ∃ t r, exec i s = .next t ∧ t.host = s.host ∧ t.straps = s.straps ∧ t.responses = r :: s.responses := by
  rcases exec_cases i s with ⟨r, e⟩ | ⟨r, a, _, e⟩ | ⟨r, u, _, _, e⟩ | ⟨hwf, _⟩
  · exact ⟨_, r, e, rfl, rfl, rfl⟩
  · exact ⟨_, r, e, rfl, rfl, rfl⟩
  · exact ⟨_, r, e, rfl, rfl, rfl⟩
  · simp [h] at hwf

/-- An expressible command record is answered in the same way; with an illegal code the response is the error's
(R67, R172). -/
theorem runCommand_answers {c : Command} (h : expressible c = true) (s : State) :
    ∃ t r, runCommand c s = .next t ∧ t.host = s.host ∧ t.straps = s.straps ∧
      t.responses = r :: s.responses := by
  cases hd : decode c with
  | instr i => rw [runCommand_of_instr hd]; exact exec_answers (wellFormed_of_decode hd) s
  | illegalOp => exact ⟨_, _, runCommand_of_illegalOp hd, rfl, rfl, rfl⟩
  | rxSizeMismatch => exact absurd hd (decode_ne_rxSizeMismatch h)

theorem expressible_of_hostExpressible {s : State} (h : s.hostExpressible = true) {c : Command}
    (hc : .command c ∈ s.host) : expressible c = true :=
  List.all_eq_true.mp h _ hc

/-- What is left of an expressible script is expressible. -/
theorem CarriedOut.hostExpressible {l : List HostEvent} {s t : State} (h : CarriedOut l s t)
    (hs : s.hostExpressible = true) : t.hostExpressible = true := by
  unfold State.hostExpressible at hs ⊢
  rw [h.host, List.all_append, Bool.and_eq_true] at hs
  exact hs.2

/-- A step of an expressible script carries out its first event. -/
theorem step_carriesOut {s : State} {e : HostEvent} {rest : List HostEvent} (hhost : s.host = e :: rest)
    (hs : s.hostExpressible = true) : ∃ t, step s = .next t ∧ CarriedOut [e] s t := by
  cases e with
  | reset => exact ⟨_, step_of_host_reset hhost, hhost, rfl, [], rfl, rfl⟩
  | command c =>
    have hc : expressible c = true := expressible_of_hostExpressible hs (by simp [hhost])
    obtain ⟨t, r, hrun, hthost, hstraps, hresp⟩ := runCommand_answers hc { s with host := rest }
    exact ⟨t, (step_of_host_command hhost).trans hrun, by simp [hhost, hthost], hstraps, [r], hresp, rfl⟩

/-! ### Runs -/

/-- A run whose first step answers goes on from the answer. -/
theorem run_succ_of_step (M : Host.Core) {s t : M.State} (h : M.step s = .next t) (n : Nat) :
    M.run (n + 1) s = M.run n t := by
  simp only [Host.Core.run, h]

/-- A run as long as an initial part of an expressible script carries that part out. -/
theorem run_carriesOut (events : List HostEvent) {s : State} {rest : List HostEvent}
    (hhost : s.host = events ++ rest) (hs : s.hostExpressible = true) :
    ∃ t : State, Sys2Proof.core.run events.length s = .next t ∧ CarriedOut events s t := by
  induction events generalizing s with
  | nil => exact ⟨s, rfl, CarriedOut.refl s⟩
  | cons e es ih =>
    obtain ⟨t, hstep, ht⟩ := step_carriesOut hhost hs
    have hthost : t.host = es ++ rest := by simpa [hhost] using ht.host.symm
    obtain ⟨u, hrun, hu⟩ := ih hthost (ht.hostExpressible hs)
    exact ⟨u, (run_succ_of_step Sys2Proof.core hstep es.length).trans hrun, ht.trans hu⟩

/-- Settles O55: `run_carriesOut` for the first `n` events of the script. -/
theorem everyCommandIsAnswered : Obligations.EveryCommandIsAnswered := by
  intro n s hs hn
  have hsplit : s.host = s.host.take n ++ s.host.drop n := (List.take_append_drop n s.host).symm
  obtain ⟨t, hrun, ht⟩ := run_carriesOut (s.host.take n) hsplit hs
  obtain ⟨new, hresp, hlen⟩ := ht.responses
  rw [List.length_take_of_le hn] at hrun
  exact ⟨t, new, hrun, List.append_cancel_left (ht.host.symm.trans hsplit), ht.straps, hresp, hlen⟩

end Sys2Proof.Proofs.Scope

/-! The rules of 10_state.md: reset (R26), the access table (R28), the absence of other state (R25, R27), and the
invariant of the registers and the responses (R22, R63). -/

namespace Sys2Proof.Proofs.BlockState

open Sys2Proof.Machine Sys2Proof.Laws Sys2Proof.Proofs.Scope

/-! ### Reset -/

/-- Settles O1: the reset state is written out in the model, and the unit codes are those of R68. -/
theorem resetLoadsUnitResetAndClearsAlarm : Obligations.ResetLoadsUnitResetAndClearsAlarm := by
  refine ⟨rfl, fun k => ⟨rfl, rfl, fun hc => ?_, fun hf => ?_⟩⟩
  · rw [resetOf_unit, hc]; rfl
  · rw [resetOf_unit, hf]; rfl

/-- UNIT holds a member of the unit enum exactly when it is legal (R22, R69). -/
theorem unitLegal_iff (s : State) : s.unitLegal ↔ isUnit s.unit = true :=
  (isUnit_iff s.unit).symm

/-- Every reset state has the invariant, whatever its host will issue. -/
theorem resetOf_inv (k : Config) (events : List HostEvent) : { State.resetOf k with host := events }.Inv :=
  ⟨(unitLegal_iff _).mpr (unitCode_isUnit k.unitReset), by simp⟩

/-- Settles O52: `State.reset` is one of the reset states, with nothing left to issue. -/
theorem invariantHoldsAtReset : Obligations.InvariantHoldsAtReset :=
  ⟨resetOf_inv Config.straps [], resetOf_inv⟩

/-! ### The writes -/

/-- Settles O48: `exec_cases` lists the writes. -/
theorem onlyTheListedOperationsWriteRegisters : Obligations.OnlyTheListedOperationsWriteRegisters := by
  intro i s t h
  rcases exec_cases i s with ⟨r, e⟩ | ⟨r, a, hi, e⟩ | ⟨r, u, hi, _, e⟩ | ⟨_, e⟩
  · cases e.symm.trans h
    exact ⟨rfl, rfl, ⟨r, rfl⟩, absurd rfl, absurd rfl⟩
  · cases e.symm.trans h
    exact ⟨rfl, rfl, ⟨r, rfl⟩, absurd rfl, fun _ => hi⟩
  · cases e.symm.trans h
    exact ⟨rfl, rfl, ⟨r, rfl⟩, fun _ => ⟨u, hi⟩, absurd rfl⟩
  · cases e.symm.trans h

/-- What an instruction leaves in UNIT was there before or is a member of the enum (R160). -/
theorem exec_unit_cases {i : Instr} {s t : State} (h : exec i s = .next t) :
    t.unit = s.unit ∨ isUnit t.unit = true := by
  rcases exec_cases i s with ⟨_, e⟩ | ⟨_, _, _, e⟩ | ⟨_, u, _, hu, e⟩ | ⟨_, e⟩
  · cases e.symm.trans h
    exact .inl rfl
  · cases e.symm.trans h
    exact .inl rfl
  · cases e.symm.trans h
    exact .inr hu
  · cases e.symm.trans h

/-! ### What an answer shows -/

/-- What an answer shows of the block: the newest response and the block's own state after it. -/
def observed : Answer → Option (Response × Config × Byte × Bool)
  | .next t => t.responses.head?.map fun r => (r, t.block)
  | .fault _ => none
  | .refused _ => none

/-- The response an instruction is answered with, none when it is refused. -/
def response (i : Instr) (s : State) : Option Response :=
  (observed (exec i s)).map Prod.fst

theorem observed_next {t : State} {r : Response} {l : List Response} (h : t.responses = r :: l) :
    observed (.next t) = some (r, t.block) := by
  simp [observed, h]

theorem next_of_observed {a : Answer} {r : Response} {b : Config × Byte × Bool} (h : observed a = some (r, b)) :
    ∃ t l, a = .next t ∧ t.responses = r :: l ∧ t.block = b := by
  match a with
  | .next t =>
    cases hl : t.responses with
    | nil => simp [observed, hl] at h
    | cons r' l =>
      obtain ⟨rfl, rfl⟩ : r' = r ∧ t.block = b := by simpa [observed, hl] using h
      exact ⟨t, l, rfl, hl, rfl⟩

/-- An answered instruction adds exactly its response. -/
theorem exec_adds_response {i : Instr} {s t : State} (h : exec i s = .next t) :
    ∃ r, t.responses = r :: s.responses ∧ response i s = some r := by
  obtain ⟨_, _, ⟨r, hr⟩, _⟩ := onlyTheListedOperationsWriteRegisters i s t h
  exact ⟨r, hr, by rw [response, h, observed_next hr]; rfl⟩

/-! ### The response of each operation -/

section Responses

variable (s : State)

/-- The response to a receive operation after its checks, from the response `ok` it gives to good fields. -/
def rxResponse (ok : FrameFields → Response) : RxChecked → Option Response
  | .raised e => some (errorResponse e)
  | .fields f => some (ok f)
  | .missized => none

theorem response_cvtC (raw : Half) :
    response (.cvtC raw) s = some { okResponse with res := some (toRes (toCelsiusFixed (signed16 raw))) } := rfl

theorem response_cvtFcenti (raw : Half) :
    response (.cvtFcenti raw) s =
      some { okResponse with res := some (toRes (toFahrenheitCenti (signed16 raw))) } := rfl

theorem response_cvtF (raw : Half) :
    response (.cvtF raw) s = some { okResponse with res := some (toRes (toFahrenheitFixed (signed16 raw))) } := rfl

theorem response_wholeC (raw : Half) :
    response (.wholeC raw) s = some { okResponse with res := some (toRes (wholeDegreesC (signed16 raw))) } := rfl

theorem response_cvt (raw : Half) :
    response (.cvt raw) s =
      some { okResponse with
        value16 := some (wrap16 (convertIn s.unit (signed16 raw)))
        ovf := some (overflow (convertIn s.unit (signed16 raw))) } := rfl

theorem response_cmp (whole thr : Half) :
    response (.cmp whole thr) s =
      some { okResponse with active := some (above (signed16 whole) (signed16 thr)) } := rfl

/-- The three alarm ports put beside what a response already holds (R111, R150). -/
def withAlarm (old new : Bool) (r : Response) : Response :=
  { r with active := some new, rise := some (riseEdge old new), fall := some (fallEdge old new) }

theorem response_alarmUpd (whole : Half) :
    response (.alarmUpd whole) s =
      some (withAlarm s.alarmActive (above (signed16 whole) (signed16 s.straps.threshold)) okResponse) := rfl

theorem response_encode (nodeId unit : Byte) (value : Half) (alarmType : Byte) (alarmActive : Bool) :
    response (.encode nodeId unit value alarmType alarmActive) s =
      some { okResponse with
        frame := some (encodeFrame s.straps.byteOrder nodeId unit value alarmType alarmActive) } := rfl

theorem response_decode (n : Half) (l : List Byte) :
    response (.decode n l) s = rxResponse fieldsResponse (checkRx s.straps.byteOrder n l) := by
  simp only [response, exec, execDecode]
  cases checkRx s.straps.byteOrder n l <;> rfl

theorem response_split (unit : Byte) (value : Half) :
    response (.split unit value) s = some (withSplit unit value okResponse) := rfl

theorem response_rxRender (n : Half) (l : List Byte) :
    response (.rxRender n l) s =
      rxResponse (fun f => withSplit f.unit f.value (fieldsResponse f)) (checkRx s.straps.byteOrder n l) := by
  simp only [response, exec, execRxRender]
  cases checkRx s.straps.byteOrder n l <;> rfl

theorem response_nodeCycle (raw : Half) :
    response (.nodeCycle raw) s =
      some (withAlarm s.alarmActive (above (wholeDegreesC (signed16 raw)) (signed16 s.straps.threshold))
        { okResponse with
          value16 := some (wrap16 (convertIn s.unit (signed16 raw)))
          ovf := some (overflow (convertIn s.unit (signed16 raw)))
          frame := some (encodeFrame s.straps.byteOrder s.straps.nodeId s.unit
            (wrap16 (convertIn s.unit (signed16 raw))) alarmTypeTemperature
            (above (wholeDegreesC (signed16 raw)) (signed16 s.straps.threshold))) }) := rfl

theorem response_setUnit (unit : Byte) :
    response (.setUnit unit) s = some (if isUnit unit then okResponse else errorResponse .badUnit) := by
  simp only [response, exec, execSetUnit]
  split <;> rfl

theorem response_status :
    response .status s =
      some { okResponse with
        sUnit := some s.unit
        sAlarmActive := some s.alarmActive
        sNodeId := some s.straps.nodeId
        sThreshold := some s.straps.threshold
        sByteOrder := some (byteOrderBit s.straps.byteOrder) } := rfl

end Responses

/-! ### The reads -/

/-- The response is a function of what the access table marks with r (R28). -/
theorem response_congr {i : Instr} {s s' : State} (h : (opReads i.op).agree s s') :
    response i s = response i s' := by
  obtain ⟨hunit, halarm, hnode, hthr, horder⟩ := h
  cases i with
  | cvtC | cvtFcenti | cvtF | wholeC | cmp | split => rfl
  | cvt raw => rw [response_cvt, response_cvt, hunit rfl]
  | alarmUpd whole => rw [response_alarmUpd, response_alarmUpd, halarm rfl, hthr rfl]
  | encode => rw [response_encode, response_encode, horder rfl]
  | decode => rw [response_decode, response_decode, horder rfl]
  | rxRender => rw [response_rxRender, response_rxRender, horder rfl]
  | nodeCycle raw =>
    rw [response_nodeCycle, response_nodeCycle, hunit rfl, halarm rfl, hnode rfl, hthr rfl, horder rfl]
  | setUnit => rw [response_setUnit, response_setUnit]
  | status => rw [response_status, response_status, hunit rfl, halarm rfl, hnode rfl, hthr rfl, horder rfl]

/-- Settles O49: both responses are the one `response_congr` speaks of. -/
theorem responsesDependOnlyOnTheListedReads : Obligations.ResponsesDependOnlyOnTheListedReads := by
  intro i s s' t t' r r' h h' hr hr' hagree
  obtain ⟨q, hq, hres⟩ := exec_adds_response h
  obtain ⟨q', hq', hres'⟩ := exec_adds_response h'
  have hqr : q = r := (List.cons.inj (hq.symm.trans hr)).1
  have hqr' : q' = r' := (List.cons.inj (hq'.symm.trans hr')).1
  have hsame : some q = some q' := by rw [← hres, ← hres', response_congr hagree]
  rw [← hqr, ← hqr', Option.some.inj hsame]

/-! ### No other state -/

/-- What an instruction's answer shows is a function of the block's own state (R25, R27). -/
theorem exec_observed_congr (i : Instr) {s s' : State} (h : s.block = s'.block) :
    observed (exec i s) = observed (exec i s') := by
  obtain ⟨k, u, a, host, l⟩ := s
  obtain ⟨k', u', a', host', l'⟩ := s'
  cases h
  cases i with
  | decode n rx =>
    simp only [exec, execDecode]
    cases checkRx k.byteOrder n rx <;> rfl
  | rxRender n rx =>
    simp only [exec, execRxRender]
    cases checkRx k.byteOrder n rx <;> rfl
  | setUnit unit =>
    simp only [exec, execSetUnit]
    split <;> rfl
  | _ => rfl

/-- The same of a command record, an illegal or missized one included. -/
theorem runCommand_observed_congr (c : Command) {s s' : State} (h : s.block = s'.block) :
    observed (runCommand c s) = observed (runCommand c s') := by
  cases hd : decode c with
  | instr i => rw [runCommand_of_instr hd, runCommand_of_instr hd, exec_observed_congr i h]
  | illegalOp =>
    rw [runCommand_of_illegalOp hd, runCommand_of_illegalOp hd]
    exact congrArg (fun b => some (errorResponse .illegalOp, b)) h
  | rxSizeMismatch => rw [runCommand_of_rxSizeMismatch hd, runCommand_of_rxSizeMismatch hd]

/-- Everything an answered command record can be: an instruction carried out or an illegal code (R67). -/
theorem runCommand_next_cases {c : Command} {s t : State} (h : runCommand c s = .next t) :
    (∃ i, decode c = .instr i ∧ exec i s = .next t) ∨
    (decode c = .illegalOp ∧ t = s.respond (errorResponse .illegalOp)) := by
  cases hd : decode c with
  | instr i => exact .inl ⟨i, rfl, (runCommand_of_instr hd).symm.trans h⟩
  | illegalOp => exact .inr ⟨rfl, raise_next ((runCommand_of_illegalOp hd).symm.trans h)⟩
  | rxSizeMismatch => cases (runCommand_of_rxSizeMismatch hd).symm.trans h

/-- An answered command record adds one response (R5). -/
theorem runCommand_adds_response {c : Command} {s t : State} (h : runCommand c s = .next t) :
    ∃ r, t.responses = r :: s.responses := by
  rcases runCommand_next_cases h with ⟨i, _, hexec⟩ | ⟨_, rfl⟩
  · obtain ⟨r, hr, _⟩ := exec_adds_response hexec
    exact ⟨r, hr⟩
  · exact ⟨_, rfl⟩

theorem step_issue (s : State) (c : Command) : step (s.issue c) = runCommand c s :=
  rfl

/-- Settles O51: the answers of both states show the same. -/
theorem noHiddenState : Obligations.NoHiddenState := by
  intro c s s' t hblock hstep
  rw [step_issue] at hstep
  obtain ⟨r, hr⟩ := runCommand_adds_response hstep
  have hshown : observed (runCommand c s') = some (r, t.block) := by
    rw [← runCommand_observed_congr c hblock, hstep, observed_next hr]
  obtain ⟨t', l, hrun, hl, hblock'⟩ := next_of_observed hshown
  obtain ⟨r', hr'⟩ := runCommand_adds_response hrun
  obtain rfl : r = r' := (List.cons.inj (hl.symm.trans hr')).1
  exact ⟨t', r, hrun, hblock', hr, hr'⟩

/-! ### The ports of a response -/

/-- The response has the status and the ports of an ended `op`: exactly its result ports with OK, none with an
error (R63, R64). -/
def PortsOf (op : Op) (r : Response) : Prop :=
  (r.status = 0x0 ∧ r.produced = opResultPorts op) ∨
    ((r.status = 0x1 ∨ r.status = 0x2 ∨ r.status = 0x3 ∨ r.status = 0x4) ∧ r.produced = [])

theorem PortsOf.shaped {op : Op} {r : Response} (h : PortsOf op r) : r.shaped :=
  h.imp_left fun ⟨hstatus, hports⟩ => ⟨hstatus, op, hports⟩

theorem errorStatus_code (e : BlockError) :
    statusCode (errorStatus e) = 0x1 ∨ statusCode (errorStatus e) = 0x2 ∨
      statusCode (errorStatus e) = 0x3 ∨ statusCode (errorStatus e) = 0x4 := by
  cases e <;> decide

theorem errorResponse_portsOf (op : Op) (e : BlockError) : PortsOf op (errorResponse e) :=
  .inr ⟨errorStatus_code e, errorResponse_produced e⟩

/-- A receive operation has its ports when its response to good fields does. -/
theorem rxResponse_portsOf {op : Op} {ok : FrameFields → Response} {x : RxChecked} {r : Response}
    (hok : ∀ f, PortsOf op (ok f)) (h : rxResponse ok x = some r) : PortsOf op r := by
  cases x with
  | raised e => cases h; exact errorResponse_portsOf op e
  | fields f => cases h; exact hok f
  | missized => cases h

theorem response_portsOf {i : Instr} {s : State} {r : Response} (h : response i s = some r) :
    PortsOf i.op r := by
  cases i with
  | decode n l =>
    rw [response_decode] at h
    exact rxResponse_portsOf (fun _ => .inl ⟨rfl, rfl⟩) h
  | rxRender n l =>
    rw [response_rxRender] at h
    exact rxResponse_portsOf (fun _ => .inl ⟨rfl, rfl⟩) h
  | setUnit unit =>
    rw [response_setUnit] at h
    cases h
    split
    · exact .inl ⟨rfl, rfl⟩
    · exact errorResponse_portsOf _ _
  | _ => cases h; exact .inl ⟨rfl, rfl⟩

/-! ### The ranges of a response -/

/-- The whole part of a 16-bit value fits 12 bits (R136). -/
theorem wholePart_bounds (v : Half) :
    -2048 ≤ (wrap16 (wholePart (signed16 v))).toInt ∧ (wrap16 (wholePart (signed16 v))).toInt ≤ 2047 := by
  obtain ⟨hlow, hhigh⟩ := signed16_bounds v
  have hwhole : -2048 ≤ wholePart (signed16 v) ∧ wholePart (signed16 v) ≤ 2047 := by
    unfold wholePart
    rcases lt_or_ge (signed16 v) 0 with hneg | hnonneg
    · rw [tdiv_of_neg hneg]; omega
    · rw [tdiv_of_nonneg hnonneg]; omega
  rwa [wrap16_toInt_of_fits (by omega) (by omega)]

/-- A sixteenth of a degree is 625 ten-thousandths (R137). -/
theorem fracPart_eq (v : Int) : fracPart v = ((625 * (v.natAbs % 16) : Nat) : Int) := by
  have hrem : absInt (trem v 16) = ((v.natAbs % 16 : Nat) : Int) := by
    rw [trem_eq, absInt_eq, Int.natAbs_tmod]; rfl
  rw [fracPart, hrem, tdiv_of_nonneg (by positivity)]
  omega

theorem fracPart_port_toNat (v : Int) : (BitVec.ofInt 14 (fracPart v)).toNat = 625 * (v.natAbs % 16) := by
  rw [fracPart_eq, BitVec.ofInt_natCast, BitVec.toNat_ofNat]
  omega

theorem unitLetter_cases (u : Byte) : unitLetter u = 0x43 ∨ unitLetter u = 0x46 := by
  unfold unitLetter
  split
  · exact .inl rfl
  · exact .inr rfl

/-- The constant bytes of an encoded frame and its alarm byte (R120). -/
theorem encodeFrame_fixed_bytes (order : ByteOrder) (n u : Byte) (v : Half) (ty : Byte) (a : Bool) :
    (encodeFrame order n u v ty a)[0] = 0x55 ∧ (encodeFrame order n u v ty a)[1] = 0x01 ∧
      ((encodeFrame order n u v ty a)[7] = 0x00 ∨ (encodeFrame order n u v ty a)[7] = 0x01) := by
  have halarm : u8 a = 0x00 ∨ u8 a = 0x01 := by cases a <;> simp
  cases order with
  | le => rw [encodeFrame_le]; exact ⟨rfl, rfl, halarm⟩
  | be => rw [encodeFrame_be]; exact ⟨rfl, rfl, halarm⟩

/-- The three render results keep the ranges (R136 to R138). -/
theorem withSplit_inRange {r : Response} (hr : r.inRange) (u : Byte) (v : Half) : (withSplit u v r).inRange := by
  obtain ⟨_, _, _, hrest⟩ := hr
  refine ⟨?_, ?_, ?_, hrest⟩
  · rintro w ⟨⟩
    exact wholePart_bounds v
  · rintro f ⟨⟩
    exact ⟨_, Nat.le_of_lt_succ (Nat.mod_lt _ (by decide)), fracPart_port_toNat _⟩
  · rintro l ⟨⟩
    exact unitLetter_cases u

/-- The edges are consistent with the new state of the alarm (R111). -/
theorem withAlarm_inRange {r : Response} (hr : r.inRange) (old new : Bool) : (withAlarm old new r).inRange := by
  obtain ⟨hwhole, hfrac, hletter, hunit, hflag, _, _, hframe⟩ := hr
  refine ⟨hwhole, hfrac, hletter, hunit, hflag, fun hrise => ?_, fun hfall => ?_, hframe⟩
  · obtain ⟨rfl, rfl⟩ := (riseEdge_iff old new).mp (Option.some.inj hrise)
    exact ⟨rfl, rfl⟩
  · obtain ⟨rfl, rfl⟩ := (fallEdge_iff old new).mp (Option.some.inj hfall)
    exact ⟨rfl, rfl⟩

theorem errorResponse_inRange (e : BlockError) : (errorResponse e).inRange := by
  simp [Response.inRange, errorResponse]

/-- A response with no result yet has nothing out of range. -/
theorem okResponse_inRange : okResponse.inRange := by
  simp [Response.inRange, okResponse]

theorem fieldsResponse_inRange {f : FrameFields} (h : f.startFlag = 0x55) : (fieldsResponse f).inRange := by
  simp [Response.inRange, fieldsResponse, okResponse, h]

/-- The fields that pass the receive checks carry the start flag (R121). -/
theorem startFlag_of_checkRx {order : ByteOrder} {n : Half} {l : List Byte} {f : FrameFields}
    (h : checkRx order n l = .fields f) : f.startFlag = 0x55 := by
  rcases checkRx_cases order n l with ⟨_, e⟩ | ⟨_, _, e⟩ | ⟨_, _, _, _, e⟩ | ⟨b, _, _, hflag, e⟩
  · cases e.symm.trans h
  · cases e.symm.trans h
  · cases e.symm.trans h
  · cases e.symm.trans h
    exact hflag

/-- A receive operation is in range when its response to fields with the start flag is. -/
theorem rxResponse_inRange {ok : FrameFields → Response} {order : ByteOrder} {n : Half} {l : List Byte}
    {r : Response} (hok : ∀ f : FrameFields, f.startFlag = 0x55 → (ok f).inRange)
    (h : rxResponse ok (checkRx order n l) = some r) : r.inRange := by
  cases hx : checkRx order n l with
  | raised e => rw [hx] at h; cases h; exact errorResponse_inRange e
  | fields f => rw [hx] at h; cases h; exact hok f (startFlag_of_checkRx hx)
  | missized => rw [hx] at h; cases h

theorem response_inRange {i : Instr} {s : State} {r : Response} (hs : s.unitLegal)
    (h : response i s = some r) : r.inRange := by
  cases i with
  | cvtC | cvtFcenti | cvtF | wholeC | cvt => cases h; exact okResponse_inRange
  | cmp whole thr =>
    cases h
    simp [Response.inRange, okResponse]
  | alarmUpd whole => cases h; exact withAlarm_inRange okResponse_inRange _ _
  | encode nodeId unit value alarmType alarmActive =>
    cases h
    simpa [Response.inRange, okResponse] using encodeFrame_fixed_bytes _ _ _ _ _ _
  | decode n l =>
    rw [response_decode] at h
    exact rxResponse_inRange (fun _ => fieldsResponse_inRange) h
  | split unit value => cases h; exact withSplit_inRange okResponse_inRange unit value
  | rxRender n l =>
    rw [response_rxRender] at h
    exact rxResponse_inRange (fun f hf => withSplit_inRange (fieldsResponse_inRange hf) f.unit f.value) h
  | nodeCycle raw =>
    rw [response_nodeCycle] at h
    cases h
    refine withAlarm_inRange ?_ _ _
    simpa [Response.inRange, okResponse] using encodeFrame_fixed_bytes _ _ _ _ _ _
  | setUnit unit =>
    rw [response_setUnit] at h
    cases h
    split
    · exact okResponse_inRange
    · exact errorResponse_inRange .badUnit
  | status =>
    cases h
    simpa [Response.inRange, okResponse, State.unitLegal] using hs

/-! ### The invariant -/

/-- The invariant is kept when UNIT stays legal and one good response is added. -/
theorem inv_of_adds {s t : State} {r : Response} (hs : s.Inv) (hunit : t.unit = s.unit ∨ isUnit t.unit = true)
    (hresp : t.responses = r :: s.responses) (hshaped : r.shaped) (hrange : r.inRange) : t.Inv := by
  obtain ⟨hlegal, hgood⟩ := hs
  refine ⟨(unitLegal_iff t).mpr ?_, ?_⟩
  · exact hunit.elim (fun e => e ▸ (unitLegal_iff s).mp hlegal) id
  · rw [hresp, List.forall_mem_cons]
    exact ⟨⟨hshaped, hrange⟩, hgood⟩

theorem exec_inv {i : Instr} {s t : State} (hs : s.Inv) (h : exec i s = .next t) : t.Inv := by
  obtain ⟨r, hresp, hr⟩ := exec_adds_response h
  exact inv_of_adds hs (exec_unit_cases h) hresp (response_portsOf hr).shaped (response_inRange hs.1 hr)

theorem runCommand_inv {c : Command} {s t : State} (hs : s.Inv) (h : runCommand c s = .next t) : t.Inv := by
  rcases runCommand_next_cases h with ⟨i, _, hexec⟩ | ⟨_, rfl⟩
  · exact exec_inv hs hexec
  · exact inv_of_adds hs (.inl rfl) rfl (errorResponse_portsOf .status _).shaped (errorResponse_inRange _)

/-- A reset event sets UNIT to a member of the enum and gives no response (R190). -/
theorem applyReset_inv {s : State} (hs : s.Inv) : (applyReset s).Inv :=
  ⟨(unitLegal_iff _).mpr (unitCode_isUnit s.straps.unitReset), hs.2⟩

/-- Settles O53: by the host's next event; taking it from the script leaves the registers and the responses. -/
theorem stepKeepsTheInvariant : Obligations.StepKeepsTheInvariant := by
  intro s t hs h
  match hhost : s.host with
  | [] => cases (step_of_host_nil hhost).symm.trans h
  | .reset :: rest =>
    cases (step_of_host_reset hhost).symm.trans h
    exact applyReset_inv (s := { s with host := rest }) hs
  | .command c :: rest =>
    exact runCommand_inv (s := { s with host := rest }) hs ((step_of_host_command hhost).symm.trans h)

/-- What every step keeps holds after every run that answers. -/
theorem run_keeps (M : Host.Core) {P : M.State → Prop} (hstep : ∀ s t, P s → M.step s = .next t → P t) :
    ∀ (n : Nat) (s t : M.State), P s → M.run n s = .next t → P t := by
  intro n
  induction n with
  | zero =>
    intro s t hs h
    cases h
    exact hs
  | succ n ih =>
    intro s t hs h
    cases hnext : M.step s with
    | next u => exact ih u t (hstep s u hs hnext) ((run_succ_of_step M hnext n).symm.trans h)
    | fault f => simp [Host.Core.run, hnext] at h
    | refused f => simp [Host.Core.run, hnext] at h

/-- Settles O54: the invariant holds at reset, and every step keeps it. -/
theorem unitIsLegalInEveryRun : Obligations.UnitIsLegalInEveryRun := by
  intro k events n t h
  have hinv : State.Inv t := run_keeps Sys2Proof.core stepKeepsTheInvariant n _ t (resetOf_inv k events) h
  exact hinv.1

end Sys2Proof.Proofs.BlockState

/-! The rules of 20_memory.md: the accesses to the frame buffer (R44, R45), the eight bytes ENCODE writes (R46), and
what a command reads of the commands before it (R48). -/

namespace Sys2Proof.Proofs.Memory

open Sys2Proof.Machine Sys2Proof.Laws

/-! ### A 16-bit access is two accesses to single bytes -/

section HalfAccess

variable (b : FrameBuffer) (o : Fin 7) (v : Half)

theorem memRead16_le : memRead16 .le b o = memRead8 b o.succ ++ memRead8 b o.castSucc := rfl

theorem memRead16_be : memRead16 .be b o = memRead8 b o.castSucc ++ memRead8 b o.succ := rfl

theorem memWrite16_le :
    memWrite16 .le b o v =
      memWrite8 (memWrite8 b o.castSucc (v.extractLsb' 0 8)) o.succ (v.extractLsb' 8 8) := rfl

theorem memWrite16_be :
    memWrite16 .be b o v =
      memWrite8 (memWrite8 b o.castSucc (v.extractLsb' 8 8)) o.succ (v.extractLsb' 0 8) := rfl

/-- Whatever the byte order, the two bytes written do not depend on the buffer (R45). -/
theorem exists_memWrite16_eq (order : ByteOrder) :
    ∃ x y : Byte, ∀ b, memWrite16 order b o v = memWrite8 (memWrite8 b o.castSucc x) o.succ y := by
  cases order with
  | le => exact ⟨_, _, fun b => memWrite16_le b o v⟩
  | be => exact ⟨_, _, fun b => memWrite16_be b o v⟩

theorem memRead8_write_two_first (x y : Byte) :
    memRead8 (memWrite8 (memWrite8 b o.castSucc x) o.succ y) o.castSucc = x := by
  rw [memRead8_memWrite8_other _ Fin.castSucc_lt_succ.ne, memRead8_memWrite8_same]

theorem memRead16_memWrite16_same (order : ByteOrder) : memRead16 order (memWrite16 order b o v) o = v := by
  cases order with
  | le => rw [memWrite16_le, memRead16_le, memRead8_memWrite8_same, memRead8_write_two_first, halves_append]
  | be => rw [memWrite16_be, memRead16_be, memRead8_memWrite8_same, memRead8_write_two_first, halves_append]

theorem memRead8_memWrite16_other (order : ByteOrder) {p : Fin 8} (hfirst : p ≠ o.castSucc)
    (hsecond : p ≠ o.succ) : memRead8 (memWrite16 order b o v) p = memRead8 b p := by
  obtain ⟨x, y, hwrite⟩ := exists_memWrite16_eq o v order
  rw [hwrite, memRead8_memWrite8_other _ hsecond, memRead8_memWrite8_other _ hfirst]

end HalfAccess

/-- Settles O32, by the two single-byte accesses each 16-bit access is made of. -/
theorem bufferReadAfterWrite : Obligations.BufferReadAfterWrite := by
  intro order b o v
  refine ⟨memRead16_memWrite16_same b o v order, fun p hfirst hsecond => ?_⟩
  exact memRead8_memWrite16_other b o v order (Fin.ne_of_val_ne hfirst) (Fin.ne_of_val_ne hsecond)

/-! ### Writing the same bytes from offset 0 on makes two buffers agree -/

/-- The two buffers hold the same bytes at the offsets below `n`. -/
def AgreeBelow (n : Nat) (f g : FrameBuffer) : Prop :=
  ∀ p : Fin 8, p.val < n → memRead8 f p = memRead8 g p

theorem agreeBelow_zero (f g : FrameBuffer) : AgreeBelow 0 f g :=
  fun _ h => absurd h (Nat.not_lt_zero _)

theorem AgreeBelow.eq {f g : FrameBuffer} (h : AgreeBelow 8 f g) : f = g :=
  Vector.ext fun i hi => h ⟨i, hi⟩ hi

/-- A byte written at the first offset not yet agreed on is agreed on. -/
theorem AgreeBelow.memWrite8 {f g : FrameBuffer} {o : Fin 8} (h : AgreeBelow o.val f g) (v : Byte) :
    AgreeBelow (o.val + 1) (memWrite8 f o v) (memWrite8 g o v) := by
  intro p hp
  by_cases heq : p = o
  · rw [heq, memRead8_memWrite8_same, memRead8_memWrite8_same]
  · have hlt : p.val < o.val := Nat.lt_of_le_of_ne (Nat.le_of_lt_succ hp) (Fin.val_ne_of_ne heq)
    rw [memRead8_memWrite8_other f heq, memRead8_memWrite8_other g heq, h p hlt]

theorem AgreeBelow.memWrite16 {f g : FrameBuffer} {o : Fin 7} (h : AgreeBelow o.val f g) (order : ByteOrder)
    (v : Half) : AgreeBelow (o.val + 2) (memWrite16 order f o v) (memWrite16 order g o v) := by
  obtain ⟨x, y, hwrite⟩ := exists_memWrite16_eq o v order
  rw [hwrite, hwrite]
  exact AgreeBelow.memWrite8 (o := o.succ) (AgreeBelow.memWrite8 (o := o.castSucc) h x) y

/-- Settles O28: ENCODE's seven writes go through the offsets in order and reach all eight. -/
theorem frameDoesNotDependOnTheFreshBuffer : Obligations.FrameDoesNotDependOnTheFreshBuffer := by
  intro order f g n u v t a
  have hall : AgreeBelow 8 (writeFrame order f n u v t a) (writeFrame order g n u v t a) :=
    agreeBelow_zero f g
      |>.memWrite8 (o := 0) startFlag
      |>.memWrite8 (o := 1) frameId
      |>.memWrite8 (o := 2) n
      |>.memWrite8 (o := 3) u
      |>.memWrite16 (o := 4) order v
      |>.memWrite8 (o := 6) t
      |>.memWrite8 (o := 7) (u8 a)
  exact hall.eq

/-! ### A command reads what the commands before it wrote -/

section Registers

variable (s : State)

theorem exec_setUnit_of_isUnit {u : Byte} (h : isUnit u = true) :
    exec (.setUnit u) s = .next ((s.writeUnit u).respond okResponse) := by
  simp [exec, execSetUnit, h, complete]

theorem exec_alarmUpd_writes (w : Half) :
    ∃ r, exec (.alarmUpd w) s =
      .next ((s.writeAlarm (above (signed16 w) (signed16 s.straps.threshold))).respond r) :=
  ⟨_, rfl⟩

theorem exec_status_reports :
    ∃ r, exec .status s = .next (s.respond r) ∧ r.sUnit = some s.unit ∧ r.sAlarmActive = some s.alarmActive :=
  ⟨_, rfl, rfl, rfl⟩

end Registers

/-- Settles O50: STATUS reports the two registers, of which ALARM_UPD wrote one and kept the other. -/
theorem readsSeeTheLatestWrite : Obligations.ReadsSeeTheLatestWrite := by
  intro u w s hu
  have hset := exec_setUnit_of_isUnit s ((isUnit_iff u).mpr hu)
  obtain ⟨_, halarm⟩ := exec_alarmUpd_writes ((s.writeUnit u).respond okResponse) w
  obtain ⟨r, hstatus, hunit, hactive⟩ := exec_status_reports (State.respond _ _)
  exact ⟨_, _, _, r, hset, halarm, hstatus, rfl, hunit, hactive⟩

end Sys2Proof.Proofs.Memory

/-! The rules of 30_encoding.md: the operation table and the decoder (R61, R65 to R67, R73), the sizes of the receive
ports (R62), the ports of a response (R63), and CMPD (R75). -/

namespace Sys2Proof.Proofs.Encoding

open Sys2Proof.Machine Sys2Proof.Laws Sys2Proof.Proofs.Scope Sys2Proof.Proofs.BlockState

/-! ### The operation codes -/

theorem ofCode_code (op : Op) : Op.ofCode op.code = some op := by
  cases op <;> rfl

/-- Only an operation's own code selects it (R66). -/
theorem code_of_ofCode : ∀ {w : BitVec 4} {op : Op}, Op.ofCode w = some op → op.code = w := by
  have hall : ∀ w : BitVec 4, ∀ op ∈ Op.ofCode w, op.code = w := by decide
  exact fun {w op} h => hall w op h

theorem ofCode_eq_some_iff {w : BitVec 4} {op : Op} : Op.ofCode w = some op ↔ op.code = w :=
  ⟨code_of_ofCode, fun h => h ▸ ofCode_code op⟩

/-- The codes without an operation (R67). -/
theorem ofCode_eq_none_iff : ∀ {w : BitVec 4}, Op.ofCode w = none ↔ w = 0x0 ∨ w = 0xF := by
  decide

/-- The operations with a receive record among their operands are DECODE and RX_RENDER (R66). -/
theorem format_eq_x_iff {op : Op} : op.format = .x ↔ op.code = 0x9 ∨ op.code = 0xB := by
  cases op <;> decide

/-- The code in an instruction's record selects its operation: `OpField`'s lemmas, put together. -/
theorem encode_opField : ∀ i : Instr, OpField.Statement i
  | .cvtC raw => OpField.cvtC raw
  | .cvtFcenti raw => OpField.cvtFcenti raw
  | .cvtF raw => OpField.cvtF raw
  | .wholeC raw => OpField.wholeC raw
  | .cvt raw => OpField.cvt raw
  | .cmp whole thr => OpField.cmp whole thr
  | .alarmUpd whole => OpField.alarmUpd whole
  | .encode nodeId unit value alarmType alarmActive => OpField.encode nodeId unit value alarmType alarmActive
  | .decode rxLen rxData => OpField.decode rxLen rxData
  | .split unit value => OpField.split unit value
  | .rxRender rxLen rxData => OpField.rxRender rxLen rxData
  | .nodeCycle raw => OpField.nodeCycle raw
  | .setUnit unit => OpField.setUnit unit
  | .status => OpField.status

/-! ### The operands -/

@[simp] theorem operands_op (op : Op) (c : Command) : (op.operands c).op = op := by
  cases op <;> rfl

/-- An instruction's record holds its operands. -/
theorem operands_encode (i : Instr) : i.op.operands (encode i) = i := by
  cases i <;> rfl

/-- What an operation reads from a record is exactly the ports of its format (R65, R73). -/
theorem operands_eq_iff (op : Op) (c c' : Command) :
    op.operands c = op.operands c' ↔ ∀ p ∈ op.format.ports, p.agree c c' := by
  cases op <;> simp [Op.operands, Op.format, Format.ports, Port.agree]

/-- The one way operands can fail to stand on their ports (R62, U5). -/
theorem operands_not_wellFormed_iff (op : Op) (c : Command) :
    (op.operands c).wellFormed = false ↔ op.format = .x ∧ c.rxData.length ≠ c.rxLen.toNat := by
  cases op <;> simp [Op.operands, Op.format, Instr.wellFormed, rxSized]

/-! ### The decoder -/

section Decoder

variable {c : Command} {op : Op} {i : Instr}

theorem decode_of_ofCode_none (h : Op.ofCode c.op = none) : decode c = .illegalOp := by
  simp [decode, h]

theorem decode_of_wellFormed (h : Op.ofCode c.op = some op) (hwf : (op.operands c).wellFormed = true) :
    decode c = .instr (op.operands c) := by
  simp [decode, h, hwf]

theorem decode_of_not_wellFormed (h : Op.ofCode c.op = some op) (hwf : (op.operands c).wellFormed = false) :
    decode c = .rxSizeMismatch := by
  simp [decode, h, hwf]

/-- Everything the decoder can do. -/
theorem decode_cases (c : Command) :
    (Op.ofCode c.op = none ∧ decode c = .illegalOp) ∨
    (∃ op, Op.ofCode c.op = some op ∧ decode c = .instr (op.operands c)) ∨
    (∃ op, Op.ofCode c.op = some op ∧ (op.operands c).wellFormed = false ∧ decode c = .rxSizeMismatch) := by
  cases h : Op.ofCode c.op with
  | none => exact .inl ⟨rfl, decode_of_ofCode_none h⟩
  | some op =>
    cases hwf : (op.operands c).wellFormed with
    | true => exact .inr (.inl ⟨op, rfl, decode_of_wellFormed h hwf⟩)
    | false => exact .inr (.inr ⟨op, rfl, hwf, decode_of_not_wellFormed h hwf⟩)

/-- A record read as an instruction selects the instruction's operation and holds its operands. -/
theorem ofCode_and_operands_of_decode (h : decode c = .instr i) :
    Op.ofCode c.op = some i.op ∧ i.op.operands c = i := by
  rcases decode_cases c with ⟨_, e⟩ | ⟨op, hcode, e⟩ | ⟨_, _, _, e⟩
  · cases e.symm.trans h
  · cases e.symm.trans h
    rw [operands_op]
    exact ⟨hcode, rfl⟩
  · cases e.symm.trans h

theorem decode_eq_illegalOp_iff : decode c = .illegalOp ↔ c.op = 0x0 ∨ c.op = 0xF := by
  rw [← ofCode_eq_none_iff]
  refine ⟨fun h => ?_, decode_of_ofCode_none⟩
  rcases decode_cases c with ⟨hcode, _⟩ | ⟨_, _, e⟩ | ⟨_, _, _, e⟩
  · exact hcode
  · cases e.symm.trans h
  · cases e.symm.trans h

/-- The decoder rejects exactly the missized receive records (log entry 7). -/
theorem decode_eq_rxSizeMismatch_iff :
    decode c = .rxSizeMismatch ↔ (c.op = 0x9 ∨ c.op = 0xB) ∧ c.rxData.length ≠ c.rxLen.toNat := by
  constructor
  · intro h
    rcases decode_cases c with ⟨_, e⟩ | ⟨_, _, e⟩ | ⟨op, hcode, hwf, _⟩
    · cases e.symm.trans h
    · cases e.symm.trans h
    · rw [operands_not_wellFormed_iff, format_eq_x_iff, code_of_ofCode hcode] at hwf
      exact hwf
  · rintro ⟨hop, hsize⟩
    obtain ⟨op, hcode⟩ : ∃ op : Op, op.code = c.op := by
      rcases hop with hop | hop
      · exact ⟨.decode, hop.symm⟩
      · exact ⟨.rxRender, hop.symm⟩
    refine decode_of_not_wellFormed (ofCode_eq_some_iff.mpr hcode) ?_
    rw [operands_not_wellFormed_iff, format_eq_x_iff, hcode]
    exact ⟨hop, hsize⟩

/-- Only the code and the ports of its format reach the decoder (R73). -/
theorem decode_congr {c' : Command} (hcode : Op.ofCode c.op = some op) (hop : c'.op = c.op)
    (hports : ∀ p ∈ op.format.ports, p.agree c c') : decode c = decode c' := by
  have hcode' : Op.ofCode c'.op = some op := hop ▸ hcode
  have hoperands : op.operands c = op.operands c' := (operands_eq_iff op c c').mpr hports
  cases hwf : (op.operands c).wellFormed with
  | true => rw [decode_of_wellFormed hcode hwf, decode_of_wellFormed hcode' (hoperands ▸ hwf), hoperands]
  | false => rw [decode_of_not_wellFormed hcode hwf, decode_of_not_wellFormed hcode' (hoperands ▸ hwf)]

theorem decode_encode (h : i.wellFormed = true) : decode (encode i) = .instr i := by
  have hoperands := operands_encode i
  rw [decode_of_wellFormed (encode_opField i).2 (hoperands.symm ▸ h), hoperands]

/-- A record read as an instruction and the instruction's own record have one code and the same operands. -/
theorem encode_of_decode (h : decode c = .instr i) :
    (encode i).op = c.op ∧ ∀ p ∈ i.op.format.ports, p.agree (encode i) c := by
  obtain ⟨hcode, hoperands⟩ := ofCode_and_operands_of_decode h
  exact ⟨(encode_opField i).1.trans (code_of_ofCode hcode),
    (operands_eq_iff i.op _ c).mp ((operands_encode i).trans hoperands.symm)⟩

end Decoder

/-- Settles O8: both records select the operation and hold its operands. -/
theorem decodeAndEncodeAgree : Obligations.DecodeAndEncodeAgree :=
  ⟨fun _ => decode_encode, fun _ _ h => ⟨wellFormed_of_decode h, encode_of_decode h⟩⟩

/-! ### What the step makes of the record -/

/-- Settles O4: the decoder reads no operation from the two codes, and the error is raised. -/
theorem illegalOpsAnswerIllegalOp : Obligations.IllegalOpsAnswerIllegalOp := by
  have hstep (c : Command) (s : State) (hop : c.op = 0x0 ∨ c.op = 0xF) :
      step (s.issue c) = .next (s.respond (errorResponse .illegalOp)) :=
    (step_issue s c).trans (runCommand_of_illegalOp (decode_eq_illegalOp_iff.mpr hop))
  exact ⟨fun _ => decode_eq_illegalOp_iff, fun _ s => ⟨hstep _ s (.inl rfl), hstep _ s (.inr rfl)⟩⟩

/-- A command is refused only by the decoder: what it reads as an instruction is answered. -/
theorem runCommand_refused_iff (c : Command) (s : State) :
    runCommand c s = .refused .rxSizeMismatch ↔ decode c = .rxSizeMismatch := by
  refine ⟨fun h => ?_, runCommand_of_rxSizeMismatch⟩
  cases hd : decode c with
  | instr i =>
    obtain ⟨_, _, hexec, _⟩ := exec_answers (wellFormed_of_decode hd) s
    cases hexec.symm.trans ((runCommand_of_instr hd).symm.trans h)
  | illegalOp => cases (runCommand_of_illegalOp hd).symm.trans h
  | rxSizeMismatch => rfl

/-- Settles O7: the step refuses what the decoder rejects. -/
theorem onlyMissizedReceiveRecordsAreRefused : Obligations.OnlyMissizedReceiveRecordsAreRefused := by
  intro c s
  rw [step_issue, runCommand_refused_iff, decode_eq_rxSizeMismatch_iff]

/-- Settles O9: the step reads a record only through the decoder. -/
theorem unlistedPortsAreIgnored : Obligations.UnlistedPortsAreIgnored := by
  intro c c' op hcode hop hports
  have hdecode : decode c = decode c' := decode_congr hcode hop hports
  refine ⟨hdecode, fun s => ?_⟩
  rw [step_issue, step_issue, runCommand, runCommand, hdecode]

/-! ### The words of the operation table -/

/-- The operands of a table word are all zero, so that its receive record is sized (log entry 8). -/
theorem expressible_ofTableWord (n w : Nat) : expressible (Command.ofTableWord n w) = true :=
  rfl

theorem decodeTableWord_of_code {w : Nat} {op : Op} (h : op.code = BitVec.ofNat 4 w) (n : Nat) :
    decodeTableWord n w = some (op.operands (Command.ofTableWord n w)) := by
  have hcode : Op.ofCode (Command.ofTableWord n w).op = some op := ofCode_eq_some_iff.mpr h
  have hwf := operands_wellFormed (expressible_ofTableWord n w) op
  simp [decodeTableWord, decode_of_wellFormed hcode hwf]

theorem decodeTableWord_of_illegal {w : Nat} (h : BitVec.ofNat 4 w = 0x0 ∨ BitVec.ofNat 4 w = 0xF) (n : Nat) :
    decodeTableWord n w = none := by
  have hdecode : decode (Command.ofTableWord n w) = .illegalOp := decode_eq_illegalOp_iff.mpr h
  simp [decodeTableWord, hdecode]

/-- Settles O5: a word of the table is read by its operation's code alone. -/
theorem tableWordsDecodeToTheirOperations : Obligations.TableWordsDecodeToTheirOperations :=
  ⟨decodeTableWord_of_code (op := .cvtC) rfl 8, decodeTableWord_of_code (op := .alarmUpd) rfl 8,
    decodeTableWord_of_code (op := .encode) rfl 8, decodeTableWord_of_code (op := .rxRender) rfl 8,
    decodeTableWord_of_code (op := .nodeCycle) rfl 8, decodeTableWord_of_code (op := .setUnit) rfl 8,
    decodeTableWord_of_illegal (.inl rfl) 8, decodeTableWord_of_illegal (.inr rfl) 8⟩

/-! ### The response -/

theorem produced_of_ok {op : Op} {r : Response} (h : PortsOf op r) (hok : r.status = 0x0) :
    r.produced = opResultPorts op := by
  rcases h with ⟨_, hports⟩ | ⟨herror, _⟩
  · exact hports
  · simp [hok] at herror

theorem produced_of_error {op : Op} {r : Response} (h : PortsOf op r) (herror : r.status ≠ 0x0) :
    r.produced = [] := by
  rcases h with ⟨hok, _⟩ | ⟨_, hports⟩
  · exact absurd hok herror
  · exact hports

/-- Settles O47: the response is the instruction's, whose ports `response_portsOf` lists. -/
theorem responsesCarryExactlyTheirPorts : Obligations.ResponsesCarryExactlyTheirPorts := by
  intro i s t r hexec hr
  obtain ⟨q, hq, hresponse⟩ := exec_adds_response hexec
  obtain rfl : q = r := (List.cons.inj (hq.symm.trans hr)).1
  have hports : PortsOf i.op q := response_portsOf hresponse
  exact ⟨produced_of_ok hports, produced_of_error hports⟩

/-- CMP compares the integers its two operands read as (R11, R110). -/
theorem exec_cmp (whole thr : Half) (s : State) :
    exec (.cmp whole thr) s =
      .next (s.respond { okResponse with active := some (decide (whole.toInt > thr.toInt)) }) := rfl

/-- Settles O23: CMPD is CMP with a threshold operand that reads as 23. -/
theorem cmpdComparesWithTwentyThree : Obligations.CmpdComparesWithTwentyThree := by
  intro w s
  have hthreshold : (23 : Half).toInt = 23 := by decide
  rw [Instr.cmpd, exec_cmp, hthreshold]
  rfl

end Sys2Proof.Proofs.Encoding

/-! The rules of 40_converter.md: the four exact conversions on port `res` (R91 to R94, R96), their arithmetic laws
(R97, R99), and the narrowed conversion in the selected unit (R95, R98). -/

namespace Sys2Proof.Proofs.Converter

open Sys2Proof.Machine Sys2Proof.Laws Sys2Proof.Proofs.Scope Sys2Proof.Proofs.BlockState Sys2Proof.Proofs.Encoding

/-! ### The conversions in the library's terms -/

theorem toFahrenheitFixed_eq (raw : Int) : toFahrenheitFixed raw = Int.tdiv ((raw * 45 + 3200) * 16) 100 :=
  tdiv_eq _ _

theorem wholeDegreesC_eq (raw : Int) : wholeDegreesC raw = Int.tdiv raw 4 :=
  tdiv_eq _ _

theorem convertIn_celsius (raw : Int) : convertIn 0x01 raw = toCelsiusFixed raw := rfl

theorem convertIn_fahrenheit (raw : Int) : convertIn 0x02 raw = toFahrenheitFixed raw := rfl

/-- The conversion in the selected unit, `v32` of R95. -/
theorem convertIn_eq (unit : Byte) (raw : Int) :
    convertIn unit raw = if unit = 0x01 then raw * 4 else Int.tdiv ((raw * 45 + 3200) * 16) 100 := by
  rw [← toFahrenheitFixed_eq]; rfl

/-! ### What truncation loses -/

/-- A non-negative dividend is cut down by less than the divisor. -/
theorem tdiv_mul_bounds_of_nonneg {a b : Int} (ha : 0 ≤ a) (hb : 0 < b) :
    tdiv a b * b ≤ a ∧ a < (tdiv a b + 1) * b := by
  rw [tdiv_of_nonneg ha]
  exact ⟨Int.ediv_mul_le a hb.ne', Int.lt_ediv_add_one_mul_self a hb⟩

/-- A negative dividend is cut up, toward zero, by less than the divisor: the bounds of its negation, negated. -/
theorem tdiv_mul_bounds_of_neg {a b : Int} (ha : a < 0) (hb : 0 < b) :
    (tdiv a b - 1) * b < a ∧ a ≤ tdiv a b * b := by
  have hle : -a / b * b ≤ -a := Int.ediv_mul_le (-a) hb.ne'
  have hlt : -a < (-a / b + 1) * b := Int.lt_ediv_add_one_mul_self (-a) hb
  rw [tdiv_of_neg ha]
  constructor <;> linarith

/-- Settles O18: the Fahrenheit conversion is a truncating division of `c * 16` by 100. -/
theorem fahrenheitTruncationLosesLessThanOneUnit : Obligations.FahrenheitTruncationLosesLessThanOneUnit := by
  intro raw c res
  exact ⟨fun hc => tdiv_mul_bounds_of_nonneg (by omega) (by norm_num),
    fun hc => tdiv_mul_bounds_of_neg (by omega) (by norm_num)⟩

/-- Settles O17: the factor 4 cancels from the truncating division. -/
theorem celsiusConversionLaw : Obligations.CelsiusConversionLaw := by
  intro t
  calc tdiv (toCelsiusFixed t) 16
      = Int.tdiv (t * 4) (4 * 4) := tdiv_eq _ _
    _ = Int.tdiv t 4 := Int.mul_tdiv_mul_of_pos_left t 4 (by norm_num)
    _ = tdiv t 4 := (tdiv_eq t 4).symm

/-! ### The ranges of the results -/

section Ranges

variable (raw : Half)

theorem toCelsiusFixed_bounds :
    -131072 ≤ toCelsiusFixed raw.toInt ∧ toCelsiusFixed raw.toInt ≤ 131068 := by
  obtain ⟨hlow, hhigh⟩ : -32768 ≤ raw.toInt ∧ raw.toInt ≤ 32767 := signed16_bounds raw
  unfold toCelsiusFixed
  omega

theorem toFahrenheitCenti_bounds :
    -1471360 ≤ toFahrenheitCenti raw.toInt ∧ toFahrenheitCenti raw.toInt ≤ 1477715 := by
  obtain ⟨hlow, hhigh⟩ : -32768 ≤ raw.toInt ∧ raw.toInt ≤ 32767 := signed16_bounds raw
  unfold toFahrenheitCenti
  omega

theorem toFahrenheitFixed_bounds :
    -235417 ≤ toFahrenheitFixed raw.toInt ∧ toFahrenheitFixed raw.toInt ≤ 236434 := by
  obtain ⟨hlow, hhigh⟩ := toFahrenheitCenti_bounds raw
  obtain ⟨hnonneg, hneg⟩ := fahrenheitTruncationLosesLessThanOneUnit raw.toInt
  omega

theorem wholeDegreesC_bounds : -8192 ≤ wholeDegreesC raw.toInt ∧ wholeDegreesC raw.toInt ≤ 8191 := by
  obtain ⟨hlow, hhigh⟩ : -32768 ≤ raw.toInt ∧ raw.toInt ≤ 32767 := signed16_bounds raw
  unfold wholeDegreesC
  rcases lt_or_ge raw.toInt 0 with hneg | hnonneg
  · rw [tdiv_of_neg hneg]; omega
  · rw [tdiv_of_nonneg hnonneg]; omega

/-- The largest magnitude anywhere in the family, the dividend of R93 (R96). -/
theorem abs_fahrenheit_dividend_le : |(raw.toInt * 45 + 3200) * 16| ≤ 23643440 := by
  obtain ⟨hlow, hhigh⟩ : -1471360 ≤ raw.toInt * 45 + 3200 ∧ raw.toInt * 45 + 3200 ≤ 1477715 :=
    toFahrenheitCenti_bounds raw
  rw [abs_le]
  omega

end Ranges

/-- A value in a range inside that of port `res` is exact on the port (R96). -/
theorem toRes_toInt_of_bounds {lo hi v : Int} (hlo : -2147483648 ≤ lo) (hhi : hi ≤ 2147483647)
    (hv : lo ≤ v ∧ v ≤ hi) : (toRes v).toInt = v :=
  toRes_toInt (hlo.trans hv.1) (hv.2.trans hhi)

/-- Settles O19: each range is far inside that of 32 bits. -/
theorem converterNeverOverflowsItsDatapath : Obligations.ConverterNeverOverflowsItsDatapath := by
  intro raw
  exact ⟨abs_fahrenheit_dividend_le raw,
    toRes_toInt_of_bounds (by norm_num) (by norm_num) (toCelsiusFixed_bounds raw),
    toRes_toInt_of_bounds (by norm_num) (by norm_num) (toFahrenheitCenti_bounds raw),
    toRes_toInt_of_bounds (by norm_num) (by norm_num) (toFahrenheitFixed_bounds raw),
    toRes_toInt_of_bounds (by norm_num) (by norm_num) (wholeDegreesC_bounds raw)⟩

/-! ### The four operations with an exact result -/

/-- An instruction that completes with `v` on port `res` and nothing else answers `v` exactly, when it lies in a
range inside that of the port. -/
theorem exec_answers_exactly {i : Instr} {s : State} {v lo hi : Int}
    (hexec : exec i s = complete { okResponse with res := some (toRes v) } s)
    (hlo : -2147483648 ≤ lo) (hhi : hi ≤ 2147483647) (hv : lo ≤ v ∧ v ≤ hi) :
    ∃ w : Word, w.toInt = v ∧ lo ≤ w.toInt ∧ w.toInt ≤ hi ∧
      exec i s = .next { s with responses := { status := 0x0, res := some w } :: s.responses } := by
  have hexact : (toRes v).toInt = v := toRes_toInt_of_bounds hlo hhi hv
  refine ⟨toRes v, hexact, ?_, ?_, hexec⟩
  · rw [hexact]; exact hv.1
  · rw [hexact]; exact hv.2

/-- Settles O10: CVT_C completes with `toCelsiusFixed`. -/
theorem cvtCReturnsRawTimesFour : Obligations.CvtCReturnsRawTimesFour := by
  intro c s
  exact ⟨decode_of_wellFormed (op := .cvtC) rfl rfl,
    exec_answers_exactly rfl (by norm_num) (by norm_num) (toCelsiusFixed_bounds c.raw)⟩

/-- Settles O11: CVT_FCENTI completes with `toFahrenheitCenti`. -/
theorem cvtFcentiReturnsHundredths : Obligations.CvtFcentiReturnsHundredths := by
  intro c s
  exact ⟨decode_of_wellFormed (op := .cvtFcenti) rfl rfl,
    exec_answers_exactly rfl (by norm_num) (by norm_num) (toFahrenheitCenti_bounds c.raw)⟩

/-- Settles O12: CVT_F completes with `toFahrenheitFixed`. -/
theorem cvtFReturnsTruncatedFahrenheit : Obligations.CvtFReturnsTruncatedFahrenheit := by
  intro c s
  rw [← toFahrenheitFixed_eq]
  exact ⟨decode_of_wellFormed (op := .cvtF) rfl rfl,
    exec_answers_exactly rfl (by norm_num) (by norm_num) (toFahrenheitFixed_bounds c.raw)⟩

/-- Settles O13: WHOLE_C completes with `wholeDegreesC`. -/
theorem wholeCReturnsTruncatedQuarter : Obligations.WholeCReturnsTruncatedQuarter := by
  intro c s
  rw [← wholeDegreesC_eq]
  exact ⟨decode_of_wellFormed (op := .wholeC) rfl rfl,
    exec_answers_exactly rfl (by norm_num) (by norm_num) (wholeDegreesC_bounds c.raw)⟩

/-! ### The narrowed conversion -/

theorem overflow_eq_decide (v : Int) : overflow v = decide (v < -32768 ∨ 32767 < v) := by
  rw [Bool.eq_iff_iff, overflow_iff, decide_eq_true_iff]

theorem overflow_eq_false_iff (v : Int) : overflow v = false ↔ -32768 ≤ v ∧ v ≤ 32767 := by
  simp [overflow]

theorem exec_cvt (raw : Half) (s : State) :
    exec (.cvt raw) s = .next { s with
      responses :=
        { status := 0x0
          value16 := some (wrap16 (convertIn s.unit raw.toInt))
          ovf := some (overflow (convertIn s.unit raw.toInt)) } :: s.responses } := rfl

/-- Settles O14: `wrap16` keeps the residue modulo 65536. -/
theorem cvtNarrowsTheSelectedConversion : Obligations.CvtNarrowsTheSelectedConversion := by
  intro c s
  refine ⟨decode_of_wellFormed (op := .cvt) rfl rfl,
    _, _, convertIn_eq s.unit c.raw.toInt, dvd_sub_wrap16 _, ?_⟩
  rw [exec_cvt, overflow_eq_decide]

/-- The Celsius fit range, over every integer (R98). -/
theorem celsius_fits_iff (raw : Int) :
    overflow (toCelsiusFixed raw) = false ↔ -8192 ≤ raw ∧ raw ≤ 8191 := by
  rw [overflow_eq_false_iff]
  unfold toCelsiusFixed
  omega

/-- The Fahrenheit fit range, over every integer, from what the truncation loses (R98, R99). -/
theorem fahrenheit_fits_iff (raw : Int) :
    overflow (toFahrenheitFixed raw) = false ↔ -4622 ≤ raw ∧ raw ≤ 4479 := by
  obtain ⟨hnonneg, hneg⟩ := fahrenheitTruncationLosesLessThanOneUnit raw
  have hcenti : toFahrenheitCenti raw = raw * 45 + 3200 := rfl
  rw [overflow_eq_false_iff]
  omega

/-- Settles O15: UNIT selects which of the two fit ranges holds. -/
theorem ovfIsZeroExactlyInTheFitRange : Obligations.OvfIsZeroExactlyInTheFitRange := by
  intro raw s _
  refine ⟨_, _, exec_cvt raw s, fun hunit => ?_, fun hunit => ?_⟩
  · rw [hunit, convertIn_celsius]; exact celsius_fits_iff raw.toInt
  · rw [hunit, convertIn_fahrenheit]; exact fahrenheit_fits_iff raw.toInt

/-! ### Inside the envelope -/

theorem exec_next_of_response {i : Instr} {s : State} {r : Response} (h : response i s = some r) :
    ∃ t, exec i s = .next t ∧ t.responses = r :: s.responses := by
  cases hexec : exec i s with
  | next t =>
    obtain ⟨q, hq, hresponse⟩ := exec_adds_response hexec
    cases hresponse.symm.trans h
    exact ⟨t, rfl, hq⟩
  | fault f => simp [response, hexec, observed] at h
  | refused f => simp [response, hexec, observed] at h

/-- CVT and NODE_CYCLE narrow one and the same conversion (R95, R150). -/
theorem response_narrows {i : Instr} {raw : Half} (hi : i = .cvt raw ∨ i = .nodeCycle raw) (s : State) :
    ∃ r, response i s = some r ∧ r.value16 = some (wrap16 (convertIn s.unit raw.toInt)) ∧
      r.ovf = some (overflow (convertIn s.unit raw.toInt)) := by
  rcases hi with rfl | rfl
  · exact ⟨_, response_cvt s raw, rfl, rfl⟩
  · exact ⟨_, response_nodeCycle s raw, rfl, rfl⟩

theorem wrap16_toInt_of_not_overflow {v : Int} (h : overflow v = false) : (wrap16 v).toInt = v := by
  obtain ⟨hlow, hhigh⟩ := (overflow_eq_false_iff v).mp h
  exact wrap16_toInt_of_fits hlow hhigh

/-- A response inside the envelope carries no overflow (U1). -/
theorem not_overflow_of_inEnvelope {r : Response} {o : Bool} (hovf : r.ovf = some o) (h : r.inEnvelope = true) :
    o = false := by
  simpa [Response.inEnvelope, hovf] using h

/-- Settles O16: a conversion that does not overflow is not changed by the narrowing. -/
theorem valueIsExactInsideTheEnvelope : Obligations.ValueIsExactInsideTheEnvelope := by
  intro raw s i hi
  obtain ⟨r, hresponse, hvalue, hovf⟩ := response_narrows hi s
  obtain ⟨t, hexec, hadded⟩ := exec_next_of_response hresponse
  refine ⟨t, r, _, hexec, hadded, hvalue, fun hin => ?_⟩
  rw [wrap16_toInt_of_not_overflow (not_overflow_of_inEnvelope hovf hin), convertIn_eq]

end Sys2Proof.Proofs.Converter

/-! The rules of 41_alarm.md: the threshold comparator (R110), the alarm update and its edges (R111), what the alarm does
not read (R113), and the threshold in raw ticks (R114). -/

namespace Sys2Proof.Proofs.Alarm

open Sys2Proof.Machine Sys2Proof.Laws Sys2Proof.Proofs.BlockState Sys2Proof.Proofs.Encoding Sys2Proof.Proofs.Converter

/-! ### The threshold in raw ticks -/

/-- Dropping the fraction of a degree moves a reading toward zero by less than four ticks (R94). -/
theorem wholeDegreesC_mul_bounds (raw : Int) :
    (0 ≤ raw → wholeDegreesC raw * 4 ≤ raw ∧ raw < (wholeDegreesC raw + 1) * 4) ∧
    (raw < 0 → (wholeDegreesC raw - 1) * 4 < raw ∧ raw ≤ wholeDegreesC raw * 4) :=
  ⟨fun hraw => tdiv_mul_bounds_of_nonneg hraw (by norm_num),
    fun hraw => tdiv_mul_bounds_of_neg hraw (by norm_num)⟩

section Threshold

variable (raw : Int) {T : Int}

/-- Only a non-negative reading lies above such a threshold, and it is rounded down: a whole degree is missing. -/
theorem lt_wholeDegreesC_iff_of_nonneg (hT : 0 ≤ T) : T < wholeDegreesC raw ↔ raw ≥ 4 * (T + 1) := by
  obtain ⟨hnonneg, hneg⟩ := wholeDegreesC_mul_bounds raw
  omega

/-- The readings next to such a threshold are negative and rounded up: one tick is enough. -/
theorem lt_wholeDegreesC_iff_of_neg (hT : T ≤ -1) : T < wholeDegreesC raw ↔ raw ≥ 4 * T + 1 := by
  obtain ⟨hnonneg, hneg⟩ := wholeDegreesC_mul_bounds raw
  omega

end Threshold

/-! ### The operations that write the alarm -/

theorem exec_alarmUpd (whole : Half) (s : State) :
    exec (.alarmUpd whole) s =
      .next ((s.writeAlarm (above whole.toInt s.straps.threshold.toInt)).respond
        (withAlarm s.alarmActive (above whole.toInt s.straps.threshold.toInt) okResponse)) := rfl

/-- The alarm half of NODE_CYCLE: an alarm update on the whole degrees of the reading, beside the results `q` of the
conversion and the encoding (R150). -/
theorem exec_nodeCycle_updates_alarm (raw : Half) (s : State) :
    ∃ q, exec (.nodeCycle raw) s =
      .next ((s.writeAlarm (above (wholeDegreesC raw.toInt) s.straps.threshold.toInt)).respond
        (withAlarm s.alarmActive (above (wholeDegreesC raw.toInt) s.straps.threshold.toInt) q)) :=
  ⟨{ okResponse with
      value16 := some (wrap16 (convertIn s.unit raw.toInt))
      ovf := some (overflow (convertIn s.unit raw.toInt))
      frame := some (encodeFrame s.straps.byteOrder s.straps.nodeId s.unit (wrap16 (convertIn s.unit raw.toInt))
        alarmTypeTemperature (above (wholeDegreesC raw.toInt) s.straps.threshold.toInt)) }, rfl⟩

/-- Settles O25: the new alarm state compares the whole degrees, which the two laws turn into raw ticks. -/
theorem alarmThresholdInRawTicks : Obligations.AlarmThresholdInRawTicks := by
  intro raw s
  obtain ⟨q, hexec⟩ := exec_nodeCycle_updates_alarm raw s
  refine ⟨_, hexec, fun hT => ?_, fun hT => ?_⟩
  · rw [respond_alarmActive, writeAlarm_alarmActive, above_iff]
    exact lt_wholeDegreesC_iff_of_nonneg raw.toInt hT
  · rw [respond_alarmActive, writeAlarm_alarmActive, above_iff]
    exact lt_wholeDegreesC_iff_of_neg raw.toInt hT

/-! ### The comparison and the edges -/

/-- Settles O22: the code selects CMP of the two ports, whose comparison `exec_cmp` states. -/
theorem cmpIsStrictSignedComparison : Obligations.CmpIsStrictSignedComparison := by
  intro c s
  exact ⟨decode_of_wellFormed (op := .cmp) rfl rfl, exec_cmp c.whole c.thr s⟩

theorem above_eq_decide (whole threshold : Int) : above whole threshold = decide (whole > threshold) := rfl

theorem riseEdge_eq_decide (old new : Bool) : riseEdge old new = decide (old = false ∧ new = true) := by
  rw [Bool.eq_iff_iff, riseEdge_iff, decide_eq_true_iff]

theorem fallEdge_eq_decide (old new : Bool) : fallEdge old new = decide (old = true ∧ new = false) := by
  rw [Bool.eq_iff_iff, fallEdge_iff, decide_eq_true_iff]

/-- Settles O24: ALARM_UPD writes the comparison, and both edges compare it with the old state. -/
theorem alarmUpdAssignsAndReportsEdges : Obligations.AlarmUpdAssignsAndReportsEdges := by
  intro c s
  refine ⟨decode_of_wellFormed (op := .alarmUpd) rfl rfl, _, above_eq_decide _ _, ?_⟩
  rw [exec_alarmUpd, withAlarm, riseEdge_eq_decide, fallEdge_eq_decide]
  rfl

/-! ### The unit -/

/-- Settles O26: CMP reads no register, and the alarm update reads THRESHOLD and the old alarm state only; NODE_CYCLE's
other results `q` and `q'` do depend on UNIT. -/
theorem alarmDoesNotReadTheUnit : Obligations.AlarmDoesNotReadTheUnit := by
  intro i s u hi
  rcases hi with ⟨whole, thr, rfl⟩ | ⟨whole, rfl⟩ | ⟨raw, rfl⟩
  · exact ⟨_, _, _, _, exec_cmp whole thr s, exec_cmp whole thr _, rfl, rfl, rfl, rfl, rfl, rfl⟩
  · exact ⟨_, _, _, _, exec_alarmUpd whole s, exec_alarmUpd whole _, rfl, rfl, rfl, rfl, rfl, rfl⟩
  · obtain ⟨q, hexec⟩ := exec_nodeCycle_updates_alarm raw s
    obtain ⟨q', hexec'⟩ := exec_nodeCycle_updates_alarm raw { s with unit := u }
    exact ⟨_, _, _, _, hexec, hexec', rfl, rfl, rfl, rfl, rfl, rfl⟩

end Sys2Proof.Proofs.Alarm

/-! The rules of 42_codec.md: ENCODE's frame (R120), DECODE's three outcomes (R121), the round trip (R122), and the
valid Frame a node cycle produces (R125). -/

namespace Sys2Proof.Proofs.Codec

open Sys2Proof.Machine Sys2Proof.Laws Sys2Proof.Proofs.BlockState Sys2Proof.Proofs.Memory Sys2Proof.Proofs.Encoding
open Sys2Proof.Proofs.Converter

/-! ### The fields of a buffer -/

section Fields

variable {order : ByteOrder} {b b' : FrameBuffer}

/-- A 16-bit read determines the two bytes it was put together from, whatever the byte order (R44). -/
theorem bytes_eq_of_memRead16_eq {o : Fin 7} (h : memRead16 order b o = memRead16 order b' o) :
    memRead8 b o.castSucc = memRead8 b' o.castSucc ∧ memRead8 b o.succ = memRead8 b' o.succ := by
  have hhigh := congrArg (BitVec.extractLsb' 8 8) h
  have hlow := congrArg (BitVec.extractLsb' 0 8) h
  cases order with
  | le =>
    rw [memRead16_le, memRead16_le, high_of_append, high_of_append] at hhigh
    rw [memRead16_le, memRead16_le, low_of_append, low_of_append] at hlow
    exact ⟨hlow, hhigh⟩
  | be =>
    rw [memRead16_be, memRead16_be, high_of_append, high_of_append] at hhigh
    rw [memRead16_be, memRead16_be, low_of_append, low_of_append] at hlow
    exact ⟨hhigh, hlow⟩

/-- The seven fields cover the eight bytes: buffers with the same fields are equal (R60). -/
theorem readFields_inj : readFields order b = readFields order b' ↔ b = b' := by
  refine ⟨fun h => ?_, fun h => h ▸ rfl⟩
  obtain ⟨h0, h1, h2, h3, hvalue, h6, h7⟩ := FrameFields.mk.inj h
  obtain ⟨h4, h5⟩ := bytes_eq_of_memRead16_eq hvalue
  have hall : ∀ p : Fin 8, memRead8 b p = memRead8 b' p := by
    intro p
    fin_cases p
    exacts [h0, h1, h2, h3, h4, h5, h6, h7]
  exact AgreeBelow.eq fun p _ => hall p

/-- The fields of an encoded frame are the operands between the two constants (R120, R122). -/
theorem readFields_encodeFrame (order : ByteOrder) (n u : Byte) (v : Half) (ty : Byte) (a : Bool) :
    readFields order (encodeFrame order n u v ty a) =
      { startFlag := 0x55, frameId := 0x01, nodeId := n, unit := u, value := v, alarmType := ty
        alarmStatus := u8 a } := by
  cases order with
  | le => simp [encodeFrame_le, readFields, memRead8, memRead16]
  | be => simp [encodeFrame_be, readFields, memRead8, memRead16]

/-- Encoding a buffer's own fields gives it back exactly when the bytes ENCODE supplies are already there (R122). -/
theorem encodeFrame_readFields_eq_iff (order : ByteOrder) (b : FrameBuffer) (a : Bool) :
    encodeFrame order (readFields order b).nodeId (readFields order b).unit (readFields order b).value
        (readFields order b).alarmType a = b ↔
      b[0] = 0x55 ∧ b[1] = 0x01 ∧ b[7] = u8 a := by
  rw [← readFields_inj (order := order), readFields_encodeFrame]
  simp [readFields, memRead8, eq_comm]

theorem exists_eq_u8_iff (x : Byte) : (∃ a : Bool, x = u8 a) ↔ x = 0x00 ∨ x = 0x01 := by
  rw [Bool.exists_bool, u8_false, u8_true]

end Fields

/-! ### The receive checks -/

section Checks

variable (order : ByteOrder)

/-- The length is judged first and from `rx_len` alone (R47, R173). -/
theorem checkRx_of_length_ne {n : Half} (h : n ≠ 8) (l : List Byte) :
    checkRx order n l = .raised .frameLength :=
  if_pos h

theorem checkRx_of_size (b : FrameBuffer) :
    checkRx order 8 b.toList =
      if b[0] ≠ 0x55 then .raised .frameFlag else .fields (readFields order b) := by
  rw [checkRx, if_neg (not_not.mpr rfl), rxBuffer_toList]
  rfl

theorem checkRx_of_flag_ne {b : FrameBuffer} (h : b[0] ≠ 0x55) :
    checkRx order 8 b.toList = .raised .frameFlag :=
  (checkRx_of_size order b).trans (if_pos h)

theorem checkRx_of_flag {b : FrameBuffer} (h : b[0] = 0x55) :
    checkRx order 8 b.toList = .fields (readFields order b) :=
  (checkRx_of_size order b).trans (if_neg (not_not.mpr h))

end Checks

/-! ### DECODE -/

section Decode

variable {s : State} {n : Half} {l : List Byte}

theorem exec_decode_of_raised {e : BlockError} (h : checkRx s.straps.byteOrder n l = .raised e) :
    exec (.decode n l) s = .next (s.respond (errorResponse e)) := by
  simp only [exec, execDecode, h, raise]

theorem exec_decode_of_fields {f : FrameFields} (h : checkRx s.straps.byteOrder n l = .fields f) :
    exec (.decode n l) s = .next (s.respond (fieldsResponse f)) := by
  simp only [exec, execDecode, h, complete]

end Decode

/-- A record whose data has `rx_len` bytes is sized (R62). -/
theorem rxSized_of_length {n : Half} {l : List Byte} (h : l.length = n.toNat) : rxSized n l = true :=
  beq_iff_eq.mpr h

/-- Settles O29: one outcome of the receive checks for each of the three cases. -/
theorem decodeChecksLengthThenFlagThenReturnsFields :
    Obligations.DecodeChecksLengthThenFlagThenReturnsFields := by
  refine ⟨fun c hsize => ?_, fun n l s hlen => ?_, fun b s hflag => ?_, fun b s hflag => ?_⟩
  · exact decode_of_wellFormed (op := .decode) rfl (rxSized_of_length hsize)
  · exact exec_decode_of_raised (checkRx_of_length_ne _ hlen l)
  · exact exec_decode_of_raised (checkRx_of_flag_ne _ hflag)
  · exact exec_decode_of_fields (checkRx_of_flag _ hflag)

/-! ### ENCODE -/

/-- The bytes of an encoded frame: the byte order moves the two bytes of `value` only (R42, R120). -/
theorem encodeFrame_eq (order : ByteOrder) (n u : Byte) (v : Half) (ty : Byte) (a : Bool) :
    encodeFrame order n u v ty a =
      match order with
      | .le => #v[0x55, 0x01, n, u, v.extractLsb' 0 8, v.extractLsb' 8 8, ty, u8 a]
      | .be => #v[0x55, 0x01, n, u, v.extractLsb' 8 8, v.extractLsb' 0 8, ty, u8 a] := by
  cases order with
  | le => exact encodeFrame_le n u v ty a
  | be => exact encodeFrame_be n u v ty a

theorem exec_encode (n u : Byte) (v : Half) (ty : Byte) (a : Bool) (s : State) :
    exec (.encode n u v ty a) s = .next (s.respond
      { okResponse with frame := some (encodeFrame s.straps.byteOrder n u v ty a) }) := rfl

/-- Settles O27: ENCODE completes with the encoded frame. -/
theorem encodeLaysOutTheEightBytes : Obligations.EncodeLaysOutTheEightBytes := by
  intro c s
  refine ⟨decode_of_wellFormed (op := .encode) rfl rfl, ?_⟩
  rw [exec_encode, encodeFrame_eq]
  rfl

/-! ### The round trip -/

/-- DECODE of a frame encoded in the block's own byte order completes with the fields encoded (R122). -/
theorem exec_decode_encodeFrame (n u : Byte) (v : Half) (ty : Byte) (a : Bool) (s : State) :
    exec (.decode 8 (encodeFrame s.straps.byteOrder n u v ty a).toList) s =
      .next (s.respond (fieldsResponse
        { startFlag := 0x55, frameId := 0x01, nodeId := n, unit := u, value := v, alarmType := ty
          alarmStatus := u8 a })) := by
  obtain ⟨hflag, _⟩ := encodeFrame_fixed_bytes s.straps.byteOrder n u v ty a
  rw [exec_decode_of_fields (checkRx_of_flag _ hflag), readFields_encodeFrame]

/-- Settles O30: the fields of an encoded frame are the operands, and the fields determine the buffer. -/
theorem frameRoundTrip : Obligations.FrameRoundTrip := by
  refine ⟨fun s s' n u v ty a horder => ⟨_, exec_encode n u v ty a s, ?_⟩, fun order b hflag => ?_⟩
  · rw [horder]
    exact exec_decode_encodeFrame n u v ty a s'
  · simp only [encodeFrame_readFields_eq_iff, hflag, true_and, exists_and_left, exists_eq_u8_iff]

/-! ### The valid Frame -/

/-- Of the conditions of a valid Frame, ENCODE's operands decide two; the others hold of every encoded frame (R125). -/
theorem encodeFrame_valid_iff (order : ByteOrder) (n u : Byte) (v : Half) (ty : Byte) (a : Bool) :
    (readFields order (encodeFrame order n u v ty a)).valid = true ↔
      isUnit u = true ∧ ty = alarmTypeTemperature := by
  have halarm : (u8 a == 0 || u8 a == 1) = true := by cases a <;> rfl
  rw [readFields_encodeFrame]
  simp only [FrameFields.valid, startFlag, frameId, beq_self_eq_true, halarm, Bool.true_and, Bool.and_true,
    Bool.and_eq_true, beq_iff_eq]

/-- NODE_CYCLE's frame carries the register UNIT and the temperature alarm type, whatever the reading (R150). -/
theorem response_nodeCycle_frame (raw : Half) (s : State) :
    ∃ r v a, response (.nodeCycle raw) s = some r ∧
      r.frame = some (encodeFrame s.straps.byteOrder s.straps.nodeId s.unit v alarmTypeTemperature a) :=
  ⟨_, _, _, response_nodeCycle s raw, rfl⟩

/-- Settles O41: a legal UNIT and the temperature alarm type are what validity asks of the operands. -/
theorem nodeCycleProducesValidFrames : Obligations.NodeCycleProducesValidFrames := by
  intro raw s hlegal
  obtain ⟨r, v, a, hresponse, hframe⟩ := response_nodeCycle_frame raw s
  obtain ⟨t, hexec, hadded⟩ := exec_next_of_response hresponse
  exact ⟨t, r, _, hexec, hadded, hframe,
    (encodeFrame_valid_iff _ _ _ _ _ _).mpr ⟨(unitLegal_iff s).mp hlegal, rfl⟩⟩

end Sys2Proof.Proofs.Codec

/-! The rules of 43_render.md: SPLIT's three results (R135 to R138) and the sign they lose (R141), RX_RENDER's outcomes
(R140), and the CSV record of a rendered frame with its numerals (R139). -/

namespace Sys2Proof.Proofs.Render

open Sys2Proof.Machine Sys2Proof.Laws Sys2Proof.Proofs.BlockState Sys2Proof.Proofs.Encoding Sys2Proof.Proofs.Codec

/-! ### The render arithmetic -/

theorem wholePart_eq (v : Int) : wholePart v = Int.tdiv v 16 :=
  tdiv_eq v 16

theorem fracPart_eq_tdiv (v : Int) : fracPart v = Int.tdiv (|Int.tmod v 16| * 10000) 16 := by
  rw [fracPart, tdiv_eq, trem_eq, absInt_eq, Int.abs_eq_natAbs]

theorem wholePart_neg (v : Int) : wholePart (-v) = -wholePart v := by
  rw [wholePart_eq, wholePart_eq, Int.neg_tdiv]

/-- The fraction is that of the magnitude (R137). -/
theorem fracPart_neg (v : Int) : fracPart (-v) = fracPart v := by
  rw [fracPart_eq, fracPart_eq, Int.natAbs_neg]

theorem wholePart_natAbs (v : Int) : (wholePart v).natAbs = v.natAbs / 16 := by
  rw [wholePart_eq, Int.natAbs_tdiv]
  rfl

/-- The whole part of a 16-bit value is exact on its port (R136). -/
theorem wholePart_port_toInt (v : Half) : (wrap16 (wholePart v.toInt)).toInt = Int.tdiv v.toInt 16 := by
  have hbounds : -32768 ≤ v.toInt ∧ v.toInt ≤ 32767 := signed16_bounds v
  have habs := wholePart_natAbs v.toInt
  rw [wrap16_toInt_of_fits (by omega) (by omega), wholePart_eq]

/-- The fraction of a 16-bit value is exact on its port (R137). -/
theorem fracPart_port_eq (v : Half) :
    ((BitVec.ofInt 14 (fracPart v.toInt)).toNat : Int) = Int.tdiv (|Int.tmod v.toInt 16| * 10000) 16 := by
  rw [fracPart_port_toNat, ← fracPart_eq, fracPart_eq_tdiv]

/-- The render results put beside a response are the exact quotients (R135 to R138). -/
theorem withSplit_exact (v : Half) :
    ∃ (w : Half) (f : BitVec 14),
      w.toInt = Int.tdiv v.toInt 16 ∧
      (f.toNat : Int) = Int.tdiv (|Int.tmod v.toInt 16| * 10000) 16 ∧
      ∀ (u : Byte) (r : Response), withSplit u v r =
        { r with wholePart := some w, fracPart := some f, unitLetter := some (if u = 0x01 then 0x43 else 0x46) } :=
  ⟨_, _, wholePart_port_toInt v, fracPart_port_eq v, fun _ _ => rfl⟩

/-! ### SPLIT -/

theorem exec_split (u : Byte) (v : Half) (s : State) :
    exec (.split u v) s = .next (s.respond (withSplit u v okResponse)) := rfl

/-- Settles O33: SPLIT completes with the render results alone. -/
theorem splitReturnsWholeFractionAndLetter : Obligations.SplitReturnsWholeFractionAndLetter := by
  intro c s
  obtain ⟨w, f, hwhole, hfrac, hresponse⟩ := withSplit_exact c.value
  refine ⟨decode_of_wellFormed (op := .split) rfl rfl, w, f, hwhole, hfrac, ?_⟩
  rw [exec_split, hresponse]
  rfl

/-- Values with the same whole part and the same fraction are rendered alike. -/
theorem withSplit_congr {v v' : Half} (hwhole : wholePart v.toInt = wholePart v'.toInt)
    (hfrac : fracPart v.toInt = fracPart v'.toInt) (u : Byte) (r : Response) :
    withSplit u v r = withSplit u v' r := by
  simp only [withSplit, signed16, hwhole, hfrac]

/-- Below one degree the whole part is 0, which has no sign to show (R141). -/
theorem wholePart_eq_zero {v : Int} (hlow : -16 < v) (hhigh : v < 16) : wholePart v = 0 := by
  have habs := wholePart_natAbs v
  omega

theorem withSplit_neg_of_small {v : Half} (hlow : -16 < v.toInt) (hneg : v.toInt < 0) (u : Byte) (r : Response) :
    withSplit u v r = withSplit u (-v) r := by
  have hmin : v ≠ BitVec.intMin 16 := by
    rintro rfl
    exact absurd hlow (by decide)
  have hsign : (-v).toInt = -v.toInt := BitVec.toInt_neg_of_ne_intMin hmin
  apply withSplit_congr
  · rw [hsign, wholePart_neg, wholePart_eq_zero hlow (by omega), neg_zero]
  · rw [hsign, fracPart_neg]

/-- From one degree below zero the whole part is negative (R141). -/
theorem tdiv_sixteen_neg {v : Int} (h : v ≤ -16) : Int.tdiv v 16 < 0 := by
  rw [← tdiv_eq, tdiv_of_neg (by omega)]
  omega

/-- Settles O34: a whole part of 0 hides the sign, and any other shows it. -/
theorem splitLosesTheSignOfSmallValues : Obligations.SplitLosesTheSignOfSmallValues := by
  refine fun u v s => ⟨fun hlow hneg => ?_, fun hlarge => ?_⟩
  · rw [exec_split, exec_split, withSplit_neg_of_small hlow hneg]
  · refine ⟨_, _, _, exec_split u v s, rfl, rfl, ?_⟩
    exact (wholePart_port_toInt v).trans_lt (tdiv_sixteen_neg hlarge)

/-! ### RX_RENDER -/

section RxRender

variable {s : State} {n : Half} {l : List Byte}

theorem exec_rxRender_of_raised {e : BlockError} (h : checkRx s.straps.byteOrder n l = .raised e) :
    exec (.rxRender n l) s = .next (s.respond (errorResponse e)) := by
  simp only [exec, execRxRender, h, raise]

theorem exec_rxRender_of_fields {f : FrameFields} (h : checkRx s.straps.byteOrder n l = .fields f) :
    exec (.rxRender n l) s = .next (s.respond (withSplit f.unit f.value (fieldsResponse f))) := by
  simp only [exec, execRxRender, h, complete]

end RxRender

/-- Settles O35: the receive checks are DECODE's, and the decoded unit and value are rendered as SPLIT's operands. -/
theorem rxRenderIsDecodeThenSplit : Obligations.RxRenderIsDecodeThenSplit := by
  refine ⟨fun c hsize => ?_, fun n l s hlen => ?_, fun b s hflag => ?_, fun b s hflag => ?_⟩
  · exact decode_of_wellFormed (op := .rxRender) rfl (rxSized_of_length hsize)
  · exact exec_rxRender_of_raised (checkRx_of_length_ne _ hlen l)
  · exact exec_rxRender_of_raised (checkRx_of_flag_ne _ hflag)
  · obtain ⟨w, f, hwhole, hfrac, hresponse⟩ := withSplit_exact (readFields s.straps.byteOrder b).value
    refine ⟨_, w, f, rfl, hwhole, hfrac, ?_⟩
    rw [exec_rxRender_of_fields (checkRx_of_flag _ hflag), hresponse]
    rfl

/-! ### Decimal numerals -/

theorem digit_toNat (n : Nat) : (digit n).toNat = 0x30 + n % 10 := by
  rw [digit, BitVec.toNat_ofNat]
  omega

theorem digit_ne_zero {n : Nat} (hpos : 0 < n) (hn : n < 10) : digit n ≠ 0x30 := by
  intro hzero
  have hvalue : 0x30 + n % 10 = 0x30 := (digit_toNat n).symm.trans (congrArg BitVec.toNat hzero)
  omega

/-- A numeral is one digit, or the numeral of the tenth part and one more digit: the fuel never runs out (R139). -/
theorem decimalDigits_induction {P : Nat → List Byte → Prop} (one : ∀ n, n < 10 → P n [digit n])
    (more : ∀ n l, 10 ≤ n → P (n / 10) l → P n (l ++ [digit n])) :
    ∀ fuel n, n ≤ fuel → P n (decimalDigits fuel n)
  | 0, n, h => one n (by omega)
  | fuel + 1, n, h => by
    rw [decimalDigits]
    split
    · exact one n ‹_›
    · exact more n _ (by omega) (decimalDigits_induction one more fuel (n / 10) (by omega))

theorem decimal_induction {P : Nat → List Byte → Prop} (one : ∀ n, n < 10 → P n [digit n])
    (more : ∀ n l, 10 ≤ n → P (n / 10) l → P n (l ++ [digit n])) (n : Nat) : P n (decimal n) :=
  decimalDigits_induction one more n n le_rfl

/-- The number a list of ASCII digits is read as, most significant digit first. -/
def numeralValue (l : List Byte) : Nat :=
  l.foldl (fun acc d => 10 * acc + (d.toNat - 0x30)) 0

theorem numeralValue_append_digit (l : List Byte) (n : Nat) :
    numeralValue (l ++ [digit n]) = 10 * numeralValue l + n % 10 := by
  simp [numeralValue, digit_toNat]

theorem numeralValue_decimal (n : Nat) : numeralValue (decimal n) = n := by
  refine decimal_induction (P := fun n l => numeralValue l = n) (fun n hn => ?_) (fun n l _ ih => ?_) n
  · have hdigit : numeralValue [digit n] = 10 * 0 + n % 10 := numeralValue_append_digit [] n
    omega
  · rw [numeralValue_append_digit, ih]
    omega

theorem digit_ascii (n : Nat) : 0x30 ≤ (digit n).toNat ∧ (digit n).toNat ≤ 0x39 := by
  rw [digit_toNat]
  omega

theorem decimal_ascii (n : Nat) : ∀ d ∈ decimal n, 0x30 ≤ d.toNat ∧ d.toNat ≤ 0x39 := by
  refine decimal_induction (P := fun _ l => ∀ d ∈ l, 0x30 ≤ d.toNat ∧ d.toNat ≤ 0x39)
    (fun n _ => ?_) (fun n l _ ih => ?_) n
  · exact List.forall_mem_singleton.mpr (digit_ascii n)
  · exact List.forall_mem_append.mpr ⟨ih, List.forall_mem_singleton.mpr (digit_ascii n)⟩

/-- The leading digit stays the one of the tenth part, down to a single digit, which is that of the number itself. -/
theorem decimal_head (n : Nat) : 0 < n → ∃ d, (decimal n).head? = some d ∧ d ≠ 0x30 := by
  refine decimal_induction (P := fun n l => 0 < n → ∃ d, l.head? = some d ∧ d ≠ 0x30)
    (fun n hn hpos => ⟨digit n, rfl, digit_ne_zero hpos hn⟩) (fun n l hn ih _ => ?_) n
  · obtain ⟨d, hhead, hne⟩ := ih (by omega)
    exact ⟨d, by rw [List.head?_append, hhead]; rfl, hne⟩

/-- Settles O36: the value, the ASCII range and the leading digit each follow a numeral digit by digit. -/
theorem decimalNumeralsAreExact : Obligations.DecimalNumeralsAreExact := by
  refine fun n => ⟨numeralValue_decimal n, decimal_ascii n, fun hpos hzero => ?_, ?_⟩
  · obtain ⟨d, hhead, hne⟩ := decimal_head n hpos
    exact hne (Option.some.inj (hhead.symm.trans hzero))
  · rintro rfl
    rfl

/-! ### The CSV record -/

theorem mem_produced {r : Response} {p : ResultPort} : p ∈ r.produced ↔ r.produces p = true := by
  have hall : p ∈ resultPorts := by cases p <;> decide
  rw [Response.produced, List.mem_filter, and_iff_right hall]

/-- The result ports the CSV record is put together from (R139). -/
def csvPorts : List ResultPort :=
  [.fNodeId, .unitLetter, .wholePart, .fracPart, .fAlarmType, .fAlarmStatus]

/-- A response has a CSV record exactly when it carries every port the record needs. -/
theorem csvRecord_isSome_iff (r : Response) : (csvRecord r).isSome = true ↔ csvPorts ⊆ r.produced := by
  have hports : csvPorts ⊆ r.produced ↔
      r.fNodeId.isSome ∧ r.unitLetter.isSome ∧ r.wholePart.isSome ∧ r.fracPart.isSome ∧
        r.fAlarmType.isSome ∧ r.fAlarmStatus.isSome := by
    simp [csvPorts, mem_produced, Response.produces]
  rw [hports, csvRecord]
  split
  · simp [*]
  next hnot =>
    simp only [Option.isSome_none, Bool.false_eq_true, false_iff, Option.isSome_iff_exists]
    rintro ⟨⟨n, hn⟩, ⟨u, hu⟩, ⟨w, hw⟩, ⟨f, hf⟩, ⟨ty, hty⟩, ⟨a, ha⟩⟩
    exact hnot n u w f ty a hn hu hw hf hty ha

/-- Of the 14 operations only RX_RENDER produces both a frame's fields and the render results (R63). -/
theorem csvPorts_subset_iff (op : Op) : csvPorts ⊆ opResultPorts op ↔ op = .rxRender := by
  cases op <;> decide

theorem op_eq_rxRender_iff (i : Instr) : i.op = .rxRender ↔ ∃ n l, i = .rxRender n l := by
  cases i <;> simp [Instr.op]

theorem signedDecimal_eq (n : Int) :
    signedDecimal n = (if n < 0 then [0x2D] else []) ++ decimal n.natAbs := by
  rw [signedDecimal]
  rcases lt_or_ge n 0 with hneg | hnonneg
  · rw [if_neg (not_le.mpr hneg), if_pos hneg]; rfl
  · rw [if_pos hnonneg, if_neg (not_lt.mpr hnonneg)]; rfl

/-- The record's text with the sign and the padding written out (R139). -/
theorem csvText_eq (n u : Byte) (w : Half) (f : BitVec 14) (ty a : Byte) :
    csvText n u w f ty a = decimal n.toNat ++ [0x3B, u, 0x3B] ++
      (if w.toInt < 0 then [0x2D] else []) ++ decimal w.toInt.natAbs ++ [0x2E] ++
      List.replicate (4 - (decimal f.toNat).length) 0x30 ++ decimal f.toNat ++ [0x3B] ++
      decimal ty.toNat ++ [0x3B] ++ decimal a.toNat := by
  simp only [csvText, signedDecimal_eq, signed16, pad4, List.append_assoc, List.cons_append, List.nil_append]

/-- Settles O37: the ports of a response tell RX_RENDER's from every other. -/
theorem onlyRenderedFramesYieldACsvRecord : Obligations.OnlyRenderedFramesYieldACsvRecord := by
  intro i s t r hexec hr
  obtain ⟨hok, herror⟩ := responsesCarryExactlyTheirPorts i s t r hexec hr
  refine ⟨?_, fun n u w f ty a hn hu hw hf hty ha => ?_⟩
  · rw [csvRecord_isSome_iff, ← op_eq_rxRender_iff]
    by_cases hstatus : r.status = 0x0
    · rw [hok hstatus, csvPorts_subset_iff, and_iff_right hstatus]
    · rw [herror hstatus]
      exact iff_of_false (by simp [csvPorts]) fun h => hstatus h.1
  · rw [← csvText_eq, csvRecord]
    simp only [hn, hu, hw, hf, hty, ha]

end Sys2Proof.Proofs.Render

/-! The rules of 44_node_cycle.md: NODE_CYCLE's results, frame and register write (R150), the sequence of simpler
commands it equals (R151), its repetition on one reading (R153), and its frame at a collector (R140, R150). -/

namespace Sys2Proof.Proofs.NodeCycle

open Sys2Proof.Machine Sys2Proof.Laws Sys2Proof.Proofs.Scope Sys2Proof.Proofs.BlockState Sys2Proof.Proofs.Encoding
open Sys2Proof.Proofs.Converter Sys2Proof.Proofs.Alarm Sys2Proof.Proofs.Codec Sys2Proof.Proofs.Render

/-! ### NODE_CYCLE -/

/-- The alarm state a reading produces in a block: its whole degrees against the block's threshold (R111, R150). -/
def newAlarm (raw : Half) (s : State) : Bool :=
  above (wholeDegreesC raw.toInt) s.straps.threshold.toInt

theorem newAlarm_eq_decide (raw : Half) (s : State) :
    newAlarm raw s = decide (Int.tdiv raw.toInt 4 > s.straps.threshold.toInt) := by
  rw [newAlarm, above_eq_decide, wholeDegreesC_eq]

/-- The frame of a reading: the block's own id and unit, the narrowed conversion and the new alarm state (R150). -/
def nodeFrame (raw : Half) (s : State) : FrameBuffer :=
  encodeFrame s.straps.byteOrder s.straps.nodeId s.unit (wrap16 (convertIn s.unit raw.toInt)) 0x01 (newAlarm raw s)

/-- The response to a node cycle: CVT's, ALARM_UPD's and ENCODE's results in one record (R150). -/
def nodeResponse (raw : Half) (s : State) : Response :=
  withAlarm s.alarmActive (newAlarm raw s)
    { okResponse with
      value16 := some (wrap16 (convertIn s.unit raw.toInt))
      ovf := some (overflow (convertIn s.unit raw.toInt))
      frame := some (nodeFrame raw s) }

theorem exec_nodeCycle (raw : Half) (s : State) :
    exec (.nodeCycle raw) s = .next ((s.writeAlarm (newAlarm raw s)).respond (nodeResponse raw s)) := rfl

/-- Settles O38: the alarm, the conversion and the frame, each in the statement's own terms. -/
theorem nodeCycleChainsAlarmConversionAndEncoding : Obligations.NodeCycleChainsAlarmConversionAndEncoding := by
  intro c s
  refine ⟨decode_of_wellFormed (op := .nodeCycle) rfl rfl, newAlarm c.raw s, convertIn s.unit c.raw.toInt, _,
    newAlarm_eq_decide c.raw s, convertIn_eq s.unit c.raw.toInt, dvd_sub_wrap16 _, ?_⟩
  rw [exec_nodeCycle, nodeResponse, withAlarm, nodeFrame, encodeFrame_eq, overflow_eq_decide, riseEdge_eq_decide,
    fallEdge_eq_decide]
  rfl

/-! ### The sequence of simpler commands -/

theorem exec_wholeC (raw : Half) (s : State) :
    exec (.wholeC raw) s =
      .next (s.respond { okResponse with res := some (toRes (wholeDegreesC raw.toInt)) }) := rfl

/-- The low half of a result on port `res` is the result narrowed (R15, R90). -/
theorem setWidth_toRes (v : Int) : (toRes v).setWidth 16 = wrap16 v := by
  apply BitVec.eq_of_toNat_eq
  simp only [toRes, wrap16, BitVec.toNat_setWidth, BitVec.toNat_ofInt]
  omega

/-- WHOLE_C's result goes into the 16-bit port `whole` without loss (R96). -/
theorem wholeDegreesC_port_toInt (raw : Half) :
    ((toRes (wholeDegreesC raw.toInt)).setWidth 16).toInt = wholeDegreesC raw.toInt := by
  obtain ⟨hlow, hhigh⟩ := wholeDegreesC_bounds raw
  rw [setWidth_toRes, wrap16_toInt_of_fits (by omega) (by omega)]

theorem wholeC_result_narrows_exactly (raw : Half) :
    ((toRes (wholeDegreesC raw.toInt)).setWidth 16).toInt = (toRes (wholeDegreesC raw.toInt)).toInt := by
  rw [wholeDegreesC_port_toInt, toRes_toInt_of_bounds (by norm_num) (by norm_num) (wholeDegreesC_bounds raw)]

/-- ALARM_UPD fed with WHOLE_C's result is the alarm half of the node cycle (R151). -/
theorem exec_alarmUpd_wholeC_result (raw : Half) (s : State) :
    exec (.alarmUpd ((toRes (wholeDegreesC raw.toInt)).setWidth 16)) s =
      .next ((s.writeAlarm (newAlarm raw s)).respond (withAlarm s.alarmActive (newAlarm raw s) okResponse)) := by
  rw [exec_alarmUpd, wholeDegreesC_port_toInt]
  rfl

/-- Settles O39: of the four commands only ALARM_UPD writes a register, and CVT and ENCODE after it do not read it. -/
theorem nodeCycleEqualsItsSequence : Obligations.NodeCycleEqualsItsSequence := by
  intro raw s
  exact ⟨_, _, _, _, _, _, _, _, _, _, _,
    rfl, exec_wholeC raw s, wholeC_result_narrows_exactly raw,
    rfl, exec_alarmUpd_wholeC_result raw _,
    rfl, exec_cvt raw _,
    rfl, exec_encode _ _ _ _ _ _,
    exec_nodeCycle raw s, rfl, rfl⟩

/-! ### The same reading again -/

theorem riseEdge_self (a : Bool) : riseEdge a a = false := Bool.not_and_self a

theorem fallEdge_self (a : Bool) : fallEdge a a = false := Bool.and_not_self a

/-- A node cycle that finds the alarm where its reading puts it changes no register and reports no edge (R153). -/
theorem exec_nodeCycle_of_alarm_settled {raw : Half} {s : State} (h : newAlarm raw s = s.alarmActive) :
    ∃ r, exec (.nodeCycle raw) s = .next (s.respond r) ∧ r.rise = some false ∧ r.fall = some false := by
  refine ⟨nodeResponse raw s, ?_, ?_, ?_⟩
  · rw [exec_nodeCycle, h]; rfl
  · rw [nodeResponse, h]; exact congrArg some (riseEdge_self _)
  · rw [nodeResponse, h]; exact congrArg some (fallEdge_self _)

/-- Settles O40: the first cycle puts the alarm where the reading belongs. -/
theorem repeatedNodeCycleReportsNoEdge : Obligations.RepeatedNodeCycleReportsNoEdge := by
  intro raw s
  have hsettled : newAlarm raw ((s.writeAlarm (newAlarm raw s)).respond (nodeResponse raw s)) = newAlarm raw s := rfl
  obtain ⟨r, hexec, hrise, hfall⟩ := exec_nodeCycle_of_alarm_settled hsettled
  exact ⟨_, _, r, exec_nodeCycle raw s, hexec, rfl, rfl, hrise, hfall⟩

/-! ### At the collector -/

/-- RX_RENDER of a frame encoded in the block's own byte order renders the operands of the encoding (R122, R140). -/
theorem exec_rxRender_encodeFrame (n u : Byte) (v : Half) (ty : Byte) (a : Bool) (s : State) :
    exec (.rxRender 8 (encodeFrame s.straps.byteOrder n u v ty a).toList) s =
      .next (s.respond (withSplit u v (fieldsResponse
        { startFlag := 0x55, frameId := 0x01, nodeId := n, unit := u, value := v, alarmType := ty
          alarmStatus := u8 a }))) := by
  obtain ⟨hflag, _⟩ := encodeFrame_fixed_bytes s.straps.byteOrder n u v ty a
  rw [exec_rxRender_of_fields (checkRx_of_flag _ hflag), readFields_encodeFrame]

/-- The whole part shown of a Celsius value that fits is the whole degrees of its reading (R97, R136). -/
theorem wholePart_port_of_celsius {raw : Int} (h : overflow (toCelsiusFixed raw) = false) :
    (wrap16 (wholePart (wrap16 (toCelsiusFixed raw)).toInt)).toInt = Int.tdiv raw 4 := by
  rw [wholePart_port_toInt, wrap16_toInt_of_not_overflow h, ← tdiv_eq, celsiusConversionLaw, tdiv_eq]

/-- Settles O42: the collector renders the operands of the node's encoding. -/
theorem nodeReadingArrivesAtTheCollector : Obligations.NodeReadingArrivesAtTheCollector := by
  intro raw node collector horder
  have hrender := exec_rxRender_encodeFrame node.straps.nodeId node.unit (wrap16 (convertIn node.unit raw.toInt)) 0x01
    (newAlarm raw node) collector
  rw [← horder] at hrender
  refine ⟨_, _, nodeResponse raw node, _, nodeFrame raw node, exec_nodeCycle raw node, rfl, rfl, hrender, rfl,
    rfl, rfl, rfl, rfl, rfl, rfl, fun hunit hovf => ⟨_, rfl, ?_⟩⟩
  have hfits : overflow (convertIn node.unit raw.toInt) = false := Option.some.inj hovf
  rw [hunit, convertIn_celsius] at hfits ⊢
  exact wholePart_port_of_celsius hfits

end Sys2Proof.Proofs.NodeCycle

/-! The rules of 45_system.md: SET_UNIT's check and register write (R160) and STATUS's report (R161). -/

namespace Sys2Proof.Proofs.System

open Sys2Proof.Machine Sys2Proof.Laws Sys2Proof.Proofs.Memory Sys2Proof.Proofs.Encoding

/-! ### SET_UNIT -/

section SetUnit

variable (s : State) {u : Byte}

theorem isUnit_eq_false (h : ¬ (u = 0x01 ∨ u = 0x02)) : isUnit u = false :=
  Bool.eq_false_iff.mpr fun hu => h ((isUnit_iff u).mp hu)

/-- A byte outside the enum is refused before the write (R160, R172). -/
theorem exec_setUnit_of_not_isUnit (h : isUnit u = false) :
    exec (.setUnit u) s = .next (s.respond (errorResponse .badUnit)) := by
  simp [exec, execSetUnit, h, raise]

end SetUnit

/-- Settles O43, by cases on the operand's membership in the unit enum. -/
theorem setUnitAcceptsOnlyTheTwoUnits : Obligations.SetUnitAcceptsOnlyTheTwoUnits := by
  intro c s
  refine ⟨decode_of_wellFormed (op := .setUnit) rfl rfl, ?_⟩
  split
  case isTrue hmember => exact exec_setUnit_of_isUnit s ((isUnit_iff c.unit).mpr hmember)
  case isFalse hmember => exact exec_setUnit_of_not_isUnit s (isUnit_eq_false hmember)

/-! ### STATUS -/

/-- The byte-order port is 1 exactly for a big-endian block (R161). -/
theorem byteOrderBit_eq_decide (order : ByteOrder) : byteOrderBit order = decide (order = .be) := by
  cases order <;> rfl

/-- The response to STATUS: the two registers and three of the parameters (R161). -/
def statusResponse (s : State) : Response :=
  { okResponse with
    sUnit := some s.unit
    sAlarmActive := some s.alarmActive
    sNodeId := some s.straps.nodeId
    sThreshold := some s.straps.threshold
    sByteOrder := some (byteOrderBit s.straps.byteOrder) }

theorem exec_status (s : State) : exec .status s = .next (s.respond (statusResponse s)) := rfl

/-- Settles O44: STATUS only responds, and its last port is the byte order's bit. -/
theorem statusReportsStateAndParameters : Obligations.StatusReportsStateAndParameters := by
  intro c s
  refine ⟨decode_of_wellFormed (op := .status) rfl rfl, ?_⟩
  rw [exec_status, statusResponse, byteOrderBit_eq_decide]
  rfl

end Sys2Proof.Proofs.System

/-! The rules of 60_exceptions.md: the four errors and the order in which they are tried (R170, R173), and that an error is
precise (R172). -/

namespace Sys2Proof.Proofs.Exceptions

open Sys2Proof.Machine Sys2Proof.Laws Sys2Proof.Proofs.Scope Sys2Proof.Proofs.BlockState Sys2Proof.Proofs.Encoding
open Sys2Proof.Proofs.Codec Sys2Proof.Proofs.Render Sys2Proof.Proofs.System

/-! ### The first error of an instruction -/

/-- The error of a receive record: its length is judged before its start flag (R121, R173). -/
def rxError (n : Half) (l : List Byte) : Option BlockError :=
  if n ≠ 8 then some .frameLength else if l.head? ≠ some 0x55 then some .frameFlag else none

/-- The first error that applies to an instruction, by its operands alone (R170, R173). -/
def firstError : Instr → Option BlockError
  | .decode n l => rxError n l
  | .rxRender n l => rxError n l
  | .setUnit u => if isUnit u then none else some .badUnit
  | _ => none

/-- The status code a command ends with, from the error it raises, if any (R170). -/
def endCode : Option BlockError → BitVec 4
  | none => statusCode .ok
  | some e => statusCode (errorStatus e)

theorem head?_toList (b : FrameBuffer) : b.toList.head? = some b[0] := by
  rw [List.head?_eq_getElem?, List.getElem?_eq_getElem (by simp), Vector.getElem_toList]

theorem rxError_of_length_ne {n : Half} (h : n ≠ 8) (l : List Byte) : rxError n l = some .frameLength :=
  if_pos h

theorem rxError_of_size (b : FrameBuffer) :
    rxError 8 b.toList = if b[0] ≠ 0x55 then some .frameFlag else none := by
  rw [rxError, if_neg (not_not.mpr rfl), head?_toList]
  simp only [ne_eq, Option.some.injEq]

/-- The receive checks raise exactly the record's error (R121, R173). -/
theorem checkRx_eq_raised_iff {order : ByteOrder} {n : Half} {l : List Byte} {e : BlockError}
    (hsized : rxSized n l = true) : checkRx order n l = .raised e ↔ rxError n l = some e := by
  rcases checkRx_cases order n l with ⟨hn, hx⟩ | ⟨_, _, hx⟩ | ⟨b, rfl, rfl, h, hx⟩ | ⟨b, rfl, rfl, h, hx⟩
  · rw [hx, rxError_of_length_ne hn, RxChecked.raised.injEq, Option.some.injEq]
  · exact absurd hx (checkRx_ne_missized hsized)
  · rw [hx, rxError_of_size, if_pos h, RxChecked.raised.injEq, Option.some.injEq]
  · rw [hx, rxError_of_size, if_neg (not_not.mpr h)]
    exact iff_of_false nofun nofun

theorem checkRx_ne_raised {order : ByteOrder} {n : Half} {l : List Byte} (hsized : rxSized n l = true)
    (h : rxError n l = none) (e : BlockError) : checkRx order n l ≠ .raised e := by
  rw [Ne, checkRx_eq_raised_iff hsized, h]
  exact nofun

/-! ### How an instruction ends -/

section Ends

variable {i : Instr} {s t : State} {r : Response}

/-- An instruction with an error raises it, with nothing written before (R172). -/
theorem exec_of_firstError {e : BlockError} (hwf : i.wellFormed = true) (h : firstError i = some e) :
    exec i s = .next (s.respond (errorResponse e)) := by
  cases i with
  | decode n l => exact exec_decode_of_raised ((checkRx_eq_raised_iff hwf).mpr h)
  | rxRender n l => exact exec_rxRender_of_raised ((checkRx_eq_raised_iff hwf).mpr h)
  | setUnit u =>
    simp only [firstError] at h
    split at h
    next => cases h
    next hu => cases h; exact exec_setUnit_of_not_isUnit s (Bool.eq_false_iff.mpr hu)
  | _ => cases h

/-- A receive operation that raises nothing ends with the status of its response to good fields. -/
theorem rxResponse_status {ok : FrameFields → Response} {x : RxChecked} (hok : ∀ f, (ok f).status = 0x0)
    (hx : ∀ e, x ≠ .raised e) (h : rxResponse ok x = some r) : r.status = 0x0 := by
  cases x with
  | raised e => exact absurd rfl (hx e)
  | fields f => cases h; exact hok f
  | missized => cases h

/-- An instruction without an error ends with status OK. -/
theorem response_status_of_no_error (hwf : i.wellFormed = true) (h : firstError i = none)
    (hr : response i s = some r) : r.status = 0x0 := by
  cases i with
  | decode n l =>
    rw [response_decode] at hr
    exact rxResponse_status (fun _ => rfl) (checkRx_ne_raised hwf h) hr
  | rxRender n l =>
    rw [response_rxRender] at hr
    exact rxResponse_status (fun _ => rfl) (checkRx_ne_raised hwf h) hr
  | setUnit u =>
    rw [response_setUnit] at hr
    simp only [firstError] at h
    split at h
    next hu => rw [if_pos hu] at hr; cases hr; rfl
    next => cases h
  | _ => cases hr; rfl

/-- An answered instruction ends with the status of its first error, or with OK. -/
theorem exec_ends (hwf : i.wellFormed = true) (hexec : exec i s = .next t) (hr : t.responses = r :: s.responses) :
    r.status = endCode (firstError i) := by
  obtain ⟨q, hq, hresponse⟩ := exec_adds_response hexec
  obtain rfl : q = r := (List.cons.inj (hq.symm.trans hr)).1
  cases herror : firstError i with
  | none => exact response_status_of_no_error hwf herror hresponse
  | some e =>
    cases (exec_of_firstError hwf herror).symm.trans hexec
    cases hr
    rfl

end Ends

/-! ### The status of a command record -/

theorem statusOf_of_illegalOp {c : Command} (h : decode c = .illegalOp) :
    statusOf c = statusCode (errorStatus .illegalOp) :=
  if_pos (decode_eq_illegalOp_iff.mp h)

theorem endCode_rxError (n : Half) (l : List Byte) :
    endCode (rxError n l) = if n ≠ 8 then 0x1 else if l.head? ≠ some 0x55 then 0x2 else 0x0 := by
  unfold rxError
  split
  · rfl
  · split <;> rfl

theorem endCode_setUnit (u : Byte) :
    endCode (firstError (.setUnit u)) = if u ≠ 0x01 ∧ u ≠ 0x02 then 0x4 else 0x0 := by
  by_cases hu : u = 0x01 ∨ u = 0x02
  · rw [firstError, if_pos ((isUnit_iff u).mpr hu), if_neg (fun h => hu.elim h.1 h.2)]
    rfl
  · rw [firstError, isUnit_eq_false hu, if_pos (not_or.mp hu)]
    rfl

/-- The record's status is that of the instruction it holds: the conditions on the other operations' ports do not
apply to it. -/
theorem statusOf_of_op {c : Command} {op : Op} (h : op.code = c.op) :
    statusOf c = endCode (firstError (op.operands c)) := by
  cases op with
  | decode | rxRender => simp [statusOf, ← h, Op.code, Op.operands, firstError, endCode_rxError]
  | setUnit => simp [statusOf, ← h, Op.code, Op.operands, endCode_setUnit]
  | _ => simp [statusOf, ← h, Op.code, Op.operands, firstError, endCode, statusCode]

theorem statusOf_of_instr {c : Command} {i : Instr} (h : decode c = .instr i) :
    statusOf c = endCode (firstError i) := by
  obtain ⟨hcode, hoperands⟩ := ofCode_and_operands_of_decode h
  rw [statusOf_of_op (code_of_ofCode hcode), hoperands]

/-- Settles O45: an expressible record is answered, as an illegal code or as the instruction it holds. -/
theorem eachCommandEndsWithTheStatusOfItsFirstError :
    Obligations.EachCommandEndsWithTheStatusOfItsFirstError := by
  intro c s hexpressible
  rw [step_issue]
  obtain ⟨t, r, hrun, _, _, hr⟩ := runCommand_answers hexpressible s
  refine ⟨t, r, hrun, hr, ?_⟩
  rcases runCommand_next_cases hrun with ⟨i, hdecode, hexec⟩ | ⟨hdecode, rfl⟩
  · rw [statusOf_of_instr hdecode]
    exact exec_ends (wellFormed_of_decode hdecode) hexec hr
  · rw [statusOf_of_illegalOp hdecode]
    cases hr
    rfl

/-! ### An error is precise -/

/-- A command that does not end with OK has raised an error on the state before it (R172). -/
theorem runCommand_of_status_ne_ok {c : Command} {s t : State} {r : Response} (hrun : runCommand c s = .next t)
    (hr : t.responses = r :: s.responses) (hstatus : r.status ≠ 0x0) : ∃ e, t = s.respond (errorResponse e) := by
  rcases runCommand_next_cases hrun with ⟨i, hdecode, hexec⟩ | ⟨_, ht⟩
  · have hwf := wellFormed_of_decode hdecode
    cases herror : firstError i with
    | none => exact absurd ((exec_ends hwf hexec hr).trans (congrArg endCode herror)) hstatus
    | some e =>
      cases (exec_of_firstError hwf herror).symm.trans hexec
      exact ⟨e, rfl⟩
  · exact ⟨.illegalOp, ht⟩

/-- Settles O46: an error's response is its status and nothing else. -/
theorem errorsChangeNothingAndProduceNothing : Obligations.ErrorsChangeNothingAndProduceNothing := by
  intro c s t r hstep hr hstatus
  rw [step_issue] at hstep
  obtain ⟨e, rfl⟩ := runCommand_of_status_ne_ok hstep hr hstatus
  cases hr
  rfl

end Sys2Proof.Proofs.Exceptions

/-! The rules of 70_reset_and_hazards.md: the reset event (R190) and a frame that goes from one instance to another with
a different byte order (R196). -/

namespace Sys2Proof.Proofs.Hazards

open Sys2Proof.Machine Sys2Proof.Laws Sys2Proof.Proofs.Scope Sys2Proof.Proofs.Memory Sys2Proof.Proofs.Codec

/-! ### The reset event -/

/-- A reset writes the two registers and leaves the rest of the state alone (R190). -/
theorem applyReset_eq (s : State) :
    applyReset s = { s with unit := unitCode s.straps.unitReset, alarmActive := false } := rfl

/-- Settles O2: the step takes the event and applies the reset; the unit codes are those of R68. -/
theorem resetEventSetsOnlyTheTwoRegisters : Obligations.ResetEventSetsOnlyTheTwoRegisters := by
  intro s rest hhost
  rw [step_of_host_reset hhost, applyReset_eq]
  cases s.straps.unitReset with
  | celsius => rfl
  | fahrenheit => rfl

/-! ### Frames across byte orders -/

/-- A 16-bit pattern with its two bytes exchanged. -/
def swapBytes (v : Half) : Half :=
  v.extractLsb' 0 8 ++ v.extractLsb' 8 8

@[simp] theorem high_swapBytes (v : Half) : (swapBytes v).extractLsb' 8 8 = v.extractLsb' 0 8 :=
  high_of_append _ _

@[simp] theorem low_swapBytes (v : Half) : (swapBytes v).extractLsb' 0 8 = v.extractLsb' 8 8 :=
  low_of_append _ _

section Orders

variable {order order' : ByteOrder}

/-- Writing a value in one byte order is writing its bytes exchanged in the other (R45). -/
theorem memWrite16_of_order_ne (horder : order ≠ order') (b : FrameBuffer) (o : Fin 7) (v : Half) :
    memWrite16 order b o v = memWrite16 order' b o (swapBytes v) := by
  match order, order', horder with
  | .le, .be, _ => rw [memWrite16_le, memWrite16_be, high_swapBytes, low_swapBytes]
  | .be, .le, _ => rw [memWrite16_be, memWrite16_le, high_swapBytes, low_swapBytes]

/-- A frame of the one byte order is the other's frame of the exchanged value: of the seven writes only that of `value`
reads the byte order (R42, R120). -/
theorem encodeFrame_of_order_ne (horder : order ≠ order') (n u : Byte) (v : Half) (ty : Byte) (a : Bool) :
    encodeFrame order n u v ty a = encodeFrame order' n u (swapBytes v) ty a := by
  simp only [encodeFrame, writeFrame, memWrite16_of_order_ne horder]

end Orders

/-- Settles O31: to the receiver the frame is one of its own byte order, with the value's bytes exchanged, and such a
frame decodes to what was encoded. -/
theorem byteOrderMismatchSwapsTheValue : Obligations.ByteOrderMismatchSwapsTheValue := by
  intro s s' n u v ty a horder
  refine ⟨_, exec_encode n u v ty a s, ?_⟩
  rw [encodeFrame_of_order_ne horder]
  exact exec_decode_encodeFrame n u (swapBytes v) ty a s'

end Sys2Proof.Proofs.Hazards
